-- ==== Sys2Proof/Config.lean ====
section
/-! DEFINITION. The parameters of one instance of the block (00_scope.md R4, 10_state.md R34) and the values the
spec leaves open: constants without a body, so that no proof can rest on what they are. -/

namespace Sys2Proof

/-- `W_IN`, the width of the digital input bank: fixed (R4). -/
abbrev Config.wIn : Nat := 8

/-- `W_FLAG`, the width of `SWITCH` and `DIR`: fixed (R4, D2). -/
abbrev Config.wFlag : Nat := 8

/-- The constants of one instance (R4, R34): no operation writes them and no reset changes them. They stand in
`State` (log entry 1) so that a claim about every state is a claim about every instance, whatever its widths. -/
structure Params where
  /-- `W_ADC`: width of a raw analog sample. -/
  wAdc : Nat
  /-- `W_OCR`: width of the PWM compare register. -/
  wOcr : Nat
  /-- `W_INT`: width of the mapper's signed arithmetic. -/
  wInt : Nat
  /-- `SW_BIT`: index of the switch input in the bank. -/
  swBit : Fin 8
  /-- `DIR_BIT`: index of the direction input in the bank. -/
  dirBit : Fin 8
  /-- `OUT_LO`: one end of the duty-cycle domain, a value of `W_OCR` bits. -/
  outLo : Nat
  /-- `OUT_HI`: the other end of the duty-cycle domain, a value of `W_OCR` bits. -/
  outHi : Nat
  /-- `HIST_RESET`: value of `HIST` after reset. -/
  histReset : BitVec Config.wIn
  /-- `ACT_CLAMP`: false = truncate (the reference design), true = saturate (R195, D23). -/
  actClamp : Bool
  /-- `ADC_CH`: the analog channel, opaque. -/
  adcCh : Nat
  /-- `CAL_DURATION`: the calibration window, opaque and never counted (log entry 21). -/
  calDuration : Nat
  /-- `PERIOD`: the control-loop period, opaque and never counted (log entry 21). -/
  period : Nat
deriving DecidableEq, Repr

/-- `W_ADC` of the instance `State.reset` is: the default of R4. DESIGN CHOICE, unsafe where a claim rests on the 10
(log entry 2). -/
def Config.wAdc : Nat := 10

/-- `W_OCR` of the instance `State.reset` is: the default of R4. DESIGN CHOICE, unsafe where a claim rests on the 16
(log entry 2). -/
def Config.wOcr : Nat := 16

/-- `W_INT` of the instance `State.reset` is: the default of R4 (D9). DESIGN CHOICE, unsafe where a claim rests on the
32 (log entry 2). -/
def Config.wInt : Nat := 32

/-- The OPEN parameter `OUT_LO` of the instance `State.reset` is (D29). DESIGN CHOICE, safe (log entry 2). -/
opaque Config.outLo : BitVec Config.wOcr

/-- The OPEN parameter `OUT_HI` of the instance `State.reset` is (D29). DESIGN CHOICE, safe (log entry 2). -/
opaque Config.outHi : BitVec Config.wOcr

/-- The OPEN parameter `HIST_RESET` of the instance `State.reset` is (D5). DESIGN CHOICE, safe (log entry 2). -/
opaque Config.histReset : BitVec Config.wIn

/-- The OPEN parameter `ADC_CH` of the instance `State.reset` is. DESIGN CHOICE, safe (log entry 2). -/
opaque Config.adcCh : Nat

/-- The OPEN parameter `CAL_DURATION` of the instance `State.reset` is (D13). DESIGN CHOICE, safe (log entry 2). -/
opaque Config.calDuration : Nat

/-- The OPEN parameter `PERIOD` of the instance `State.reset` is (D28). DESIGN CHOICE, safe (log entry 2). -/
opaque Config.period : Nat

/-- `SW_BIT` of the instance `State.reset` is: the default, from the document's one literal `0b00010000` (D3).
DESIGN CHOICE, unsafe where a claim rests on the 4 (log entry 2). -/
def Config.swBit : Fin 8 := 4

/-- Which of the seven places other than `SW_BIT` the OPEN parameter `DIR_BIT` has (D4). -/
opaque Config.dirBitPlace : Fin 7

/-- `DIR_BIT` of the instance `State.reset` is: any index but `SW_BIT` (R4, D4). DESIGN CHOICE, safe (log entry 2). -/
def Config.dirBit : Fin 8 :=
  if Config.dirBitPlace.val < Config.swBit.val then Config.dirBitPlace.castSucc else Config.dirBitPlace.succ

/-- The instance `State.reset` is: the widths, `SW_BIT` and `ACT_CLAMP` at their defaults, every OPEN parameter
uninterpreted (log entry 2). -/
def Config.instancePar : Params where
  wAdc := Config.wAdc
  wOcr := Config.wOcr
  wInt := Config.wInt
  swBit := Config.swBit
  dirBit := Config.dirBit
  outLo := Config.outLo.toNat
  outHi := Config.outHi.toNat
  histReset := Config.histReset
  actClamp := false
  adcCh := Config.adcCh
  calDuration := Config.calDuration
  period := Config.period

/-- What an `OCR` of a given width holds between power-up and the first `PWMWR`: the spec gives no value and says "a
model must not pick 0" (R29, D25, U5). DESIGN CHOICE, unsafe: one value for every run (log entry 4). -/
opaque Config.ocrReset : (width : Nat) → BitVec width

/-- The free answer of `AdcRead()` of a converter of a given width, on a channel, at a draw number (D35: "any
`W_ADC`-bit value, drawn afresh each call, no law"). Safe (log entry 7). -/
opaque Config.freeAdc : (width channel draw : Nat) → BitVec width

/-- The free answer of `CalExpired()` for a window at a draw number (R162, D13). Safe (log entry 7). -/
opaque Config.freeExpired : (duration draw : Nat) → Bool

/-- Whether the environment presents an event before the next foreground phase, and with which snapshot
(R120, R224, D15, D32). How many come in one iteration may depend on the period. Safe (log entry 7). -/
opaque Config.freeEvent : (period draw : Nat) → Option (BitVec Config.wIn)

end Sys2Proof
end

