-- ==== Sys2Proof/Word.lean ====
section
/-! DEFINITION. The word types of the block whose width the spec fixes (00_scope.md R4, R7; 30_encoding.md R90 to R93).
Bit 0 is the least significant bit of every word (R6). A word whose width is a parameter (`W_ADC`, `W_OCR`, `W_INT`) is
held as its value, a `Nat` or an `Int` (log entry 3). -/

namespace Sys2Proof

/-- `bits8`: the input bank, `HIST` and the flag words (R90, R91). -/
abbrev Byte : Type := BitVec Config.wIn

/-- A phase code, the contents of `PH` (R32, R95). -/
abbrev PhaseCode : Type := BitVec 4

/-- A schedule word `{K[3:0], P[3:0], A[15:0]}` (R105). -/
abbrev SchedWord : Type := BitVec 24

/-- A selector word of the drive multiplexer, `{en, DIR_L[7:0]}` (R93). -/
abbrev Selector : Type := BitVec 9

end Sys2Proof
end

