-- ==== Sys2Proof/Syntax.lean ====
section
/-! DEFINITION. The operations of the block, one constructor for each row of spec/opcode_table.json, and the
stimuli the environment presents them by (30_encoding.md R94 to R99, R105). -/

namespace Sys2Proof

/-- The twenty rows of the opcode table. A phase's draws are its operands, as R162 and R182 say; an operand whose width
is a parameter is a value (log entry 3). -/
inductive Instr where
  /-- `SETUP` (R181). -/
  | setup
  /-- `CALINIT` (R161). -/
  | calinit
  /-- `CALSMP` (R162): `none` when `CalExpired()` answers true, `some s` when it answers false and `AdcRead()`
  answers `s`. -/
  | calsmp (draw : Option Nat)
  /-- `CALEND` (R163). -/
  | calend
  /-- `SAMPLE` (R182): `adc` is the answer of `AdcRead()`. -/
  | sample (adc : Nat)
  /-- `MAP`, the phase (R183). -/
  | mapPhase
  /-- `REPORT` (R184). -/
  | report
  /-- `RDSW` (R185). -/
  | rdsw
  /-- `RDDIR` (R186). -/
  | rddir
  /-- `DRIVE` (R187, R191). -/
  | drive
  /-- `PWMWR` (R188). -/
  | pwmwr
  /-- `OFFOUT` (R189). -/
  | offout
  /-- `OFFRPT` (R190). -/
  | offrpt
  /-- `SLEEP` (R192). -/
  | sleep
  /-- `EDGE` (R122): `cur` is the snapshot `PinRead()`. -/
  | edge (cur : Byte)
  /-- `map`, the mapper's function (R140), with the operand tuple of R99. -/
  | mapFn (value srcLow srcHigh dstLow dstHigh : Nat)
  /-- `DRV_OFF` (R93, R193): `dirL` is not read. -/
  | drvOff (dirL : Byte)
  /-- `DRV_FWD` (R93, R193). -/
  | drvFwd
  /-- `DRV_REV` (R93, R193). -/
  | drvRev
  /-- `DRV_ERR` (R93, R191): `dirL` is at least 2. -/
  | drvErr (dirL : Byte)
deriving DecidableEq, Repr

/-- What one entry of the environment's script makes the machine do: run an operation, or the power-up reset,
which is no row of the opcode table (R105, R250). -/
inductive Command where
  | run (i : Instr)
  | reset
deriving DecidableEq, Repr

/-- One thing the environment presents to the block. -/
inductive Stimulus where
  /-- A schedule word (R105): a foreground step, an event, or reset. -/
  | sched (w : SchedWord)
  /-- The strobe `EVT` with `PIN` (R61): taken while `IE = 1`, without effect while `IE = 0` (R230). -/
  | evt (pin : Byte)
  /-- The selector wires of the drive multiplexer, driven alone (R93). DESIGN CHOICE, safe (log entry 10). -/
  | mux (sel : Selector)
  /-- The operand wires of the mapper, driven alone (R99). DESIGN CHOICE, safe (log entry 10). -/
  | func (value srcLow srcHigh dstLow dstHigh : Nat)
deriving DecidableEq, Repr

end Sys2Proof
end

