-- ==== Sys2Proof/WellFormed.lean ====
section
/-! DEFINITION. Which operations and which instances are well formed. The widths the spec fixes are in the types; that an
operand is a value of an instance's own widths is `Machine.operandsFit`. -/

namespace Sys2Proof

/-- The conditions of the encodings. `DRV_ERR` stands for `DIR_L >= 0x02` only: its row is the default after `DRV_FWD`
and `DRV_REV` (spec/opcode_table.json; R93). A schedule word holds a draw in 16 bits, of which a calibration draw leaves
bit 15 to "expired" (R105). -/
def wellFormed (i : Instr) : Bool :=
  match i with
  | .drvErr dirL => decide (2 ≤ dirL.toNat)
  | .calsmp (some v) => decide (v < 2 ^ 15)
  | .sample adc => decide (adc < 2 ^ 16)
  | .setup | .calinit | .calsmp none | .calend | .mapPhase | .report | .rdsw | .rddir | .drive | .pwmwr
  | .offout | .offrpt | .sleep | .edge _ | .mapFn _ _ _ _ _ | .drvOff _ | .drvFwd | .drvRev => true

/-- The constraints of R4 on an instance: `DIR_BIT != SW_BIT` (also R256), `W_INT >= W_ADC + W_OCR + 2`, and `OUT_LO`,
`OUT_HI` of `W_OCR` bits each. -/
def Params.wf (p : Params) : Bool :=
  decide (p.swBit ≠ p.dirBit ∧ p.wAdc + p.wOcr + 2 ≤ p.wInt ∧ p.outLo < 2 ^ p.wOcr ∧ p.outHi < 2 ^ p.wOcr)

end Sys2Proof
end

