-- ==== Sys2Proof/Decode.lean ====
section
/-! DEFINITION. Decoding: total, rejecting by name (30_encoding.md R93, R95, R96, R102, R105), and after it the
encoder and the layout of the opcode table's words. -/

namespace Sys2Proof

/-- Why a stimulus stands for nothing. -/
inductive DecodeError where
  /-- A phase code 14 or 15, which names no phase (R102, D26). -/
  | reservedPhase
  /-- A schedule word whose `K` is none of 0, 1, 2 (R105). -/
  | reservedKind
  /-- A schedule word with `K != 0` and `P != 0` (R105: "0 when `K != 0`"). -/
  | phaseFieldNotZero
  /-- An argument field with bits the operation has no use for (R105: "or 0"). -/
  | argumentNotZero
  /-- A calibration argument that says "expired" and holds a draw beside it: bit 15 set with other bits (R105). -/
  | expiredWithDraw
deriving DecidableEq, Repr

/-! ## Phase codes (R95) -/

/-- The phase a code names (R95), with the environment's answers as its draws: `draw` for `CALSMP`, `adc` for
`SAMPLE`. -/
def phaseInstr (code : PhaseCode) (draw : Option Nat) (adc : Nat) : Except DecodeError Instr :=
  match code.toNat with
  | 0 => .ok .setup
  | 1 => .ok .calinit
  | 2 => .ok (.calsmp draw)
  | 3 => .ok .calend
  | 4 => .ok (.sample adc)
  | 5 => .ok .mapPhase
  | 6 => .ok .report
  | 7 => .ok .rdsw
  | 8 => .ok .rddir
  | 9 => .ok .drive
  | 10 => .ok .pwmwr
  | 11 => .ok .offout
  | 12 => .ok .offrpt
  | 13 => .ok .sleep
  | _ => .error .reservedPhase

/-- The code of a phase (R95); `none` for an operation that is no phase. -/
def phaseCode (i : Instr) : Option PhaseCode :=
  match i with
  | .setup => some 0
  | .calinit => some 1
  | .calsmp _ => some 2
  | .calend => some 3
  | .sample _ => some 4
  | .mapPhase => some 5
  | .report => some 6
  | .rdsw => some 7
  | .rddir => some 8
  | .drive => some 9
  | .pwmwr => some 10
  | .offout => some 11
  | .offrpt => some 12
  | .sleep => some 13
  | .edge _ | .mapFn _ _ _ _ _ | .drvOff _ | .drvFwd | .drvRev | .drvErr _ => none

/-! ## Schedule words (R105) -/

/-- `K`, bits 23:20. -/
def schedKind (w : SchedWord) : BitVec 4 := w.extractLsb' 20 4

/-- `P`, bits 19:16. -/
def schedPhase (w : SchedWord) : PhaseCode := w.extractLsb' 16 4

/-- `A`, bits 15:0. -/
def schedArg (w : SchedWord) : BitVec 16 := w.extractLsb' 0 16

/-- `{K, P, A}` with `K` in the high bits (R105, R6). -/
def schedWord (k : BitVec 4) (p : PhaseCode) (a : BitVec 16) : SchedWord := k ++ p ++ a

/-- The argument that says "expired": bit 15 set and nothing else (`028000`, R105). -/
def expiredArg : BitVec 16 := 0x8000

/-- A foreground step of the schedule: phase field and argument field (R105). Whether a draw is one of the instance's
`W_ADC` bits is not the word's to say: the fetch looks at that (log entry 13). -/
def decodePhaseStep (p : PhaseCode) (a : BitVec 16) : Except DecodeError Instr :=
  match p.toNat with
  | 2 =>
    if a = expiredArg then .ok (.calsmp none)
    else if a.toNat < 2 ^ 15 then .ok (.calsmp (some a.toNat))
    else .error .expiredWithDraw
  | 4 => .ok (.sample a.toNat)
  | _ => (phaseInstr p none 0).bind fun i => if a = 0 then .ok i else .error .argumentNotZero

/-- A schedule word (R105): `K` = 0 a foreground step, 1 an event, 2 reset. -/
def decodeSched (w : SchedWord) : Except DecodeError Command :=
  match (schedKind w).toNat with
  | 0 => (decodePhaseStep (schedPhase w) (schedArg w)).map .run
  | 1 =>
    if schedPhase w ≠ 0 then .error .phaseFieldNotZero
    else if (schedArg w).toNat < 2 ^ Config.wIn then .ok (.run (.edge ((schedArg w).setWidth Config.wIn)))
    else .error .argumentNotZero
  | 2 =>
    if schedPhase w ≠ 0 then .error .phaseFieldNotZero
    else if schedArg w = 0 then .ok .reset
    else .error .argumentNotZero
  | _ => .error .reservedKind

/-! ## The drive multiplexer's selector (R93) -/

/-- `en`, bit 8 of a selector. -/
def selEnable (sel : Selector) : Bool := sel.getLsbD 8

/-- `DIR_L`, bits 7:0 of a selector. -/
def selDir (sel : Selector) : Byte := sel.extractLsb' 0 8

/-- The row of the truth table a selector picks (R93); `DRV_ERR` is the default after the other two enabled rows
(spec/opcode_table.json). -/
def decodeSelector (sel : Selector) : Instr :=
  if selEnable sel = false then .drvOff (selDir sel)
  else if selDir sel = 0x00 then .drvFwd
  else if selDir sel = 0x01 then .drvRev
  else .drvErr (selDir sel)

/-- `{en, DIR_L[7:0]}` (R93). -/
def selectorWord (en : Bool) (dirL : Byte) : Selector := BitVec.ofBool en ++ dirL

/-! ## Decoding a stimulus -/

/-- What a stimulus stands for. -/
def decode (st : Stimulus) : Except DecodeError Command :=
  match st with
  | .sched w => decodeSched w
  | .evt pin => .ok (.run (.edge pin))
  | .mux sel => .ok (.run (decodeSelector sel))
  | .func value srcLow srcHigh dstLow dstHigh => .ok (.run (.mapFn value srcLow srcHigh dstLow dstHigh))

/-! ## Encoding -/

/-- The schedule word of a phase without a draw. -/
def encodePhase (p : PhaseCode) : Stimulus := .sched (schedWord 0 p 0)

/-- The stimulus that stands for an operation: the schedule word of R105 for a phase and for an event, the
selector of R93 for a row of the multiplexer, the operand wires of R99 for the mapper. -/
def encode (i : Instr) : Stimulus :=
  match i with
  | .setup => encodePhase 0
  | .calinit => encodePhase 1
  | .calsmp none => .sched (schedWord 0 2 expiredArg)
  | .calsmp (some v) => .sched (schedWord 0 2 (BitVec.ofNat 16 v))
  | .calend => encodePhase 3
  | .sample adc => .sched (schedWord 0 4 (BitVec.ofNat 16 adc))
  | .mapPhase => encodePhase 5
  | .report => encodePhase 6
  | .rdsw => encodePhase 7
  | .rddir => encodePhase 8
  | .drive => encodePhase 9
  | .pwmwr => encodePhase 10
  | .offout => encodePhase 11
  | .offrpt => encodePhase 12
  | .sleep => encodePhase 13
  | .edge cur => .sched (schedWord 1 0 (cur.setWidth 16))
  | .mapFn value srcLow srcHigh dstLow dstHigh => .func value srcLow srcHigh dstLow dstHigh
  | .drvOff dirL => .mux (selectorWord false dirL)
  | .drvFwd => .mux (selectorWord true 0x00)
  | .drvRev => .mux (selectorWord true 0x01)
  | .drvErr dirL => .mux (selectorWord true dirL)

/-- The schedule word of `reset`, `200000` (R105). -/
def encodeReset : Stimulus := .sched (schedWord 2 0 0)

/-! ## The opcode table's words -/

/-- A schedule word that stands for nothing, for table words that no row has. -/
def noStimulus : Stimulus := .sched (schedWord 0xF 0 0)

/-- The stimulus of a table word of `nbits` bits (whole bytes). The table's four spaces share lengths, so this
says which space a word is read in. No bits: `map` with operands of zeros. Up to one byte: a phase code below 16,
and from 16 on, where no phase code can be meant, an `EDGE` snapshot. Up to two bytes: a selector of the
multiplexer. Three bytes: a schedule word. A phase code alone holds no draw, which the spec leaves to the environment
(R62, R162, D35): its argument field is taken as 0, so that code 2 is a `CALSMP` with "not expired" and the sample 0, and
code 4 a `SAMPLE` of 0. The other draws have schedule words and free steps. DESIGN CHOICE, safe (log entry 14). -/
def tableStimulus (nbits w : Nat) : Stimulus :=
  if nbits = 0 then .func 0 0 0 0 0
  else if nbits ≤ 8 then
    if w < 16 then .sched (schedWord 0 (BitVec.ofNat 4 w) 0)
    else if w < 256 then .sched (schedWord 1 0 (BitVec.ofNat 16 w))
    else noStimulus
  else if nbits ≤ 16 then
    if w < 512 then .mux (BitVec.ofNat 9 w) else noStimulus
  else if nbits ≤ 24 then
    if w < 16777216 then .sched (BitVec.ofNat 24 w) else noStimulus
  else noStimulus

/-- The instruction the decoder reads from a table word (see `tableStimulus`). -/
def decodeTableWord (nbits w : Nat) : Option Instr :=
  match decode (tableStimulus nbits w) with
  | .ok (.run i) => some i
  | .ok .reset => none
  | .error _ => none

end Sys2Proof
end

