-- ==== Sys2Proof/Machine/State.lean ====
section
/-! DEFINITION. The state of the block (10_state.md), the reasons a step can stop, and the state after reset
(70_reset_and_hazards.md R250, 10_state.md R39). -/

namespace Sys2Proof.Machine

/-- The kinds of status record (R97); codes 5 to 7 are reserved and have no constructor. -/
inductive StatusKind where
  /-- `ST_SWITCH`, code 0: `EDGE` when the switch bit changed. -/
  | stSwitch
  /-- `ST_DIR`, code 1: `EDGE` when the direction bit changed. -/
  | stDir
  /-- `ST_SAMPLE`, code 2: phase `REPORT`. -/
  | stSample
  /-- `ST_OFF`, code 3: phase `OFFRPT`. -/
  | stOff
  /-- `ST_DIRERR`, code 4: phase `DRIVE` when `DIR_L >= 2`. -/
  | stDirerr
deriving DecidableEq, Repr

/-- A status record `(kind, a, b)`, the payloads signed integers (R97; their width, log entries 3 and 20). -/
structure StatusRecord where
  kind : StatusKind
  a : Int
  b : Int
deriving DecidableEq, Repr

/-- An initialisation request (R98). -/
inductive Request where
  /-- `INIT_ADC`, code 0. -/
  | initAdc
  /-- `INIT_PWM`, code 1. -/
  | initPwm
deriving DecidableEq, Repr

/-- The reasons a step can fault: none. "No operation returns a failure code" and "no operation halts the system"
(R10, R222); the block raises no trap, so there is nothing for this type to name (log entry 27). -/
inductive Fault where
deriving DecidableEq, Repr

/-- The reasons a step is refused. -/
inductive Refusal where
  /-- An operation that has no meaning yet; raised by `exec` alone, and by no arm of it now. Safe. -/
  | notModelled (mnemonic : String)
  /-- The next stimulus stands for nothing, or `PH` holds a reserved code (R102: "no foreground step ... a model
  should refuse such a state"); raised by `fetch`. Safe. -/
  | undecodable (e : DecodeError)
  /-- The script schedules a phase other than the one `PH` names (R105: "well-formed only when `PH` holds the
  code"); raised by `fetch`. Safe. -/
  | phaseMismatch
  /-- The script schedules an `EDGE` step while `IE = 0` (R105: "well-formed only when `IE = 1`"; test program P8);
  raised by `fetch`. Safe. -/
  | eventMasked
  /-- The script presents a draw, or the mapper an operand, with more bits than the instance's wires have (R9, R99:
  values of `W_ADC` or `W_OCR` bits); raised by `fetch`. Safe. -/
  | operandTooWide
deriving DecidableEq, Repr

/-- The state: the elements of 10_state.md R39 by their names, the constants of the instance (R34), and the
environment as plain data. A register whose width is a parameter holds its value, and `State.Fits` (Safety.lean) says
that every step keeps it within its width (log entry 3). -/
structure State where
  /-- `SWITCH` (R20). -/
  switch : Byte
  /-- `DIR` (R21). -/
  dir : Byte
  /-- `HIST` (R22). -/
  hist : Byte
  /-- `CAL_LO`, the value of a word of `W_ADC` bits (R23). -/
  calLo : Nat
  /-- `CAL_HI`, the value of a word of `W_ADC` bits (R23). -/
  calHi : Nat
  /-- `SAMPLE`, the value of a word of `W_ADC` bits (R24). -/
  sample : Nat
  /-- `CALV`, the value of a two's-complement word of `W_INT` bits (R25). -/
  calv : Int
  /-- `SW_L` (R26). -/
  swL : Byte
  /-- `DIR_L` (R27). -/
  dirL : Byte
  /-- `DOUT` (R28): bit 1 is output A, bit 0 output B. -/
  dout : BitVec 2
  /-- `OCR`, the value of a word of `W_OCR` bits (R29). -/
  ocr : Nat
  /-- `PH` (R32). -/
  ph : PhaseCode
  /-- `IE`, one bit (R33): true = 1. -/
  ie : Bool
  /-- `STAT` (R36), oldest record first. -/
  stat : List StatusRecord
  /-- `REQ` (R36), oldest request first. -/
  req : List Request
  /-- The constants of the instance (R34): no operation and no reset writes them (log entry 1). -/
  par : Params
  /-- The environment's: what it still has to present, next first (log entry 6). -/
  script : List Stimulus
  /-- The environment's: the number of the next free draw (log entry 7). -/
  tick : Nat
  /-- The model's: the result wires of a stand-alone evaluation of the mapper (R99, log entry 10). -/
  mapOut : Int
deriving DecidableEq, Repr

/-- The state after power-up of the instance `p`, with nothing scripted (R39, R250). The registers R39 calls
"unwritten" hold the values of log entry 4. -/
def State.resetWith (p : Params) : State where
  switch := 0x00
  dir := 0x00
  hist := p.histReset
  calLo := 0
  calHi := 0
  sample := 0
  calv := 0
  swL := 0x00
  dirL := 0x00
  dout := 0b00
  ocr := (Config.ocrReset p.wOcr).toNat
  ph := 0
  ie := false
  stat := []
  req := []
  par := p
  script := []
  tick := 0
  mapOut := 0

/-- The machine right after reset (R39), of the instance whose OPEN parameters are uninterpreted (log entry 2). -/
def State.reset : State := State.resetWith Config.instancePar

end Sys2Proof.Machine
end

