-- ==== Sys2Proof/Machine/Ops.lean ====
section
/-! DEFINITION. The operations over the state that the meanings share: one write for each register (10_state.md),
the appends to the two histories (R36), reset (R250), and the taking of the edge interrupt (60_exceptions.md R223
to R230). The block has no memory (20_memory.md R60). -/

namespace Sys2Proof.Machine

/-! ## Register writes -/

/-- `PH <- p` (R32, R8). -/
def State.goTo (s : State) (p : PhaseCode) : State := { s with ph := p }

/-- `IE <- b` (R33). -/
def State.setIe (s : State) (b : Bool) : State := { s with ie := b }

/-- `CAL_LO <- lo` and `CAL_HI <- hi` in one step (R23). -/
def State.setRange (s : State) (lo hi : Nat) : State := { s with calLo := lo, calHi := hi }

/-- `SAMPLE <- v` (R24). -/
def State.setSample (s : State) (v : Nat) : State := { s with sample := v }

/-- `CALV <- v` (R25). -/
def State.setCalv (s : State) (v : Int) : State := { s with calv := v }

/-- `SW_L <- v` (R26). -/
def State.setSwL (s : State) (v : Byte) : State := { s with swL := v }

/-- `DIR_L <- v` (R27). -/
def State.setDirL (s : State) (v : Byte) : State := { s with dirL := v }

/-- `DOUT <- v`, both outputs in one step (R28, D21). -/
def State.setDout (s : State) (v : BitVec 2) : State := { s with dout := v }

/-- `OCR <- v` (R29). -/
def State.setOcr (s : State) (v : Nat) : State := { s with ocr := v }

/-- The detector's write: `HIST`, `SWITCH` and `DIR` in one step (R30, R77). -/
def State.setDetector (s : State) (hist switch dir : Byte) : State :=
  { s with hist := hist, switch := switch, dir := dir }

/-- The result wires of a stand-alone evaluation of the mapper (log entry 10). -/
def State.setMapOut (s : State) (v : Int) : State := { s with mapOut := v }

/-! ## Histories (R36) -/

/-- `Emit(rec)`: append to `STAT`; it never blocks (R65, R231; DESIGN CHOICE of the spec, unsafe, log entry 17). -/
def State.emit (s : State) (rec : StatusRecord) : State := { s with stat := s.stat ++ [rec] }

/-- `Emit(rec)` when `c` holds. -/
def State.emitIf (s : State) (c : Bool) (rec : StatusRecord) : State := if c then s.emit rec else s

/-- `Req(q)`: append to `REQ` (R98). -/
def State.issue (s : State) (q : Request) : State := { s with req := s.req ++ [q] }

/-- The code of a status kind (R97). -/
def StatusKind.code (k : StatusKind) : BitVec 3 :=
  match k with
  | .stSwitch => 0
  | .stDir => 1
  | .stSample => 2
  | .stOff => 3
  | .stDirerr => 4

/-- The kind a code names; the reserved codes 5, 6, 7 name none (R97, U6). -/
def StatusKind.ofCode (c : BitVec 3) : Option StatusKind :=
  match c.toNat with
  | 0 => some .stSwitch
  | 1 => some .stDir
  | 2 => some .stSample
  | 3 => some .stOff
  | 4 => some .stDirerr
  | _ => none

/-- The code of a request (R98). -/
def Request.code (q : Request) : BitVec 1 :=
  match q with
  | .initAdc => 0
  | .initPwm => 1

/-! ## Reset -/

/-- Power-up (R250): every element of the block at the value of R39. The instance and the environment are no part
of the block, so the parameters (R34), the rest of the script and the draw number stay. DEDUCED, safe (log
entry 15). -/
def State.powerUp (s : State) : State :=
  { State.resetWith s.par with script := s.script, tick := s.tick }

/-! ## The edge interrupt -/

/-- Taking an event (R223 to R230): with `IE = 1` the handler `body` runs as one step, and neither the entry nor
the return saves, restores or changes any control state (R226, R228); with `IE = 0` an event "has no effect on the
block" (R230). DEDUCED, safe (log entry 8). -/
def State.takeEvent (s : State) (body : State → State) : State := if s.ie then body s else s

end Sys2Proof.Machine
end

