-- ==== Sys2Proof/Machine/Operands.lean ====
section
/-! DEFINITION. Operands: their widths, widening and narrowing (30_encoding.md R100, R101), the mapper's arithmetic
(41_range_mapper.md R140 to R149), the actuator stage (43_control_loop.md R195) and the motor state (R193). -/

namespace Sys2Proof.Machine

/-- The value of an unsigned word, which widening keeps (R7, R100): the payload of a flag (R97). -/
def uval {n : Nat} (v : BitVec n) : Int := (v.toNat : Int)

/-- `trunc_N(v)` on an unsigned value: what a port or a wire of `N` bits carries of it (R7). A value of `N` bits is
carried whole. -/
def truncTo (width v : Nat) : Nat := v % 2 ^ width

/-- The value in `-2^(N-1) .. 2^(N-1) - 1` of the two's-complement word of `N` bits that an integer leaves (R7). -/
def signedOf (width : Nat) (v : Int) : Int := v.bmod (2 ^ width)

/-- The operands of an operation are values of the instance's widths: `W_ADC` bits for a draw (R9, R162, R182), and
`W_ADC` and `W_OCR` bits for the mapper's operands (R99). -/
def operandsFit (p : Params) (i : Instr) : Bool :=
  match i with
  | .calsmp (some v) => decide (v < 2 ^ p.wAdc)
  | .sample adc => decide (adc < 2 ^ p.wAdc)
  | .mapFn value srcLow srcHigh dstLow dstHigh =>
    decide (value < 2 ^ p.wAdc ∧ srcLow < 2 ^ p.wAdc ∧ srcHigh < 2 ^ p.wAdc ∧ dstLow < 2 ^ p.wOcr ∧ dstHigh < 2 ^ p.wOcr)
  | .setup | .calinit | .calsmp none | .calend | .mapPhase | .report | .rdsw | .rddir | .drive | .pwmwr
  | .offout | .offrpt | .sleep | .edge _ | .drvOff _ | .drvFwd | .drvRev | .drvErr _ => true

/-- The mapper over the integers (R140): the degenerate test first (R142), then the product in full, one division
truncated toward zero (R143, R144, D10, D11), and `dstLow` last; no clamping (R145, C1). -/
def mapInt (value srcLow srcHigh dstLow dstHigh : Int) : Int :=
  if srcHigh = srcLow then dstLow
  else dstLow + ((value - srcLow) * (dstHigh - dstLow)).tdiv (srcHigh - srcLow)

/-- The mapper unit of an instance (R99, R141): the integer result on its `W_INT` result wires, which hold it exactly
(R146; log entry 16). -/
def mapUnit (p : Params) (value srcLow srcHigh dstLow dstHigh : Nat) : Int :=
  signedOf p.wInt (mapInt value srcLow srcHigh dstLow dstHigh)

/-- The largest value of a raw sample, `2^W_ADC - 1` (R161, D12). -/
def rawTop (p : Params) : Nat := 2 ^ p.wAdc - 1

/-- The actuator stage `act` (R195, R101): truncation to `W_OCR` bits when `ACT_CLAMP = 0`, saturation to the duty
domain when `ACT_CLAMP = 1` (D23). -/
def act (p : Params) (v : Int) : Nat :=
  if p.actClamp then (max (min (p.outLo : Int) p.outHi) (min (max (p.outLo : Int) p.outHi) v)).toNat
  else (v % 2 ^ p.wOcr).toNat

/-- The motor states of R193, and the invalid configuration of R191. -/
inductive MotorState where
  | off
  | forward
  | reverse
  | invalid
deriving DecidableEq, Repr

/-- The motor state two flag words select (R93, R193): a non-zero switch word is enabled (D8). -/
def motorState (sw dirL : Byte) : MotorState :=
  if sw = 0x00 then .off
  else if dirL = 0x00 then .forward
  else if dirL = 0x01 then .reverse
  else .invalid

end Sys2Proof.Machine
end

