-- ==== Sys2Proof/Machine/Calibration.lean ====
section
/-! DEFINITION. The calibration phases of the sequencer (42_calibrator.md). -/

namespace Sys2Proof.Machine

/-- `CALINIT` (R161). -/
def execCalinit (s : State) : Host.Outcome State Fault Refusal := .next (((s.setIe false).setRange (rawTop s.par) 0).goTo 2)

/-- `CALSMP` (R162): `none` is `CalExpired()` true; `some v` is a sample `v` on the converter's `W_ADC` wires, which both
bounds take in. -/
def execCalsmp (draw : Option Nat) (s : State) : Host.Outcome State Fault Refusal :=
  match draw with
  | none => .next (s.goTo 3)
  | some v =>
    .next ((s.setRange (min s.calLo (truncTo s.par.wAdc v)) (max s.calHi (truncTo s.par.wAdc v))).goTo 2)

/-- `CALEND` (R163). -/
def execCalend (s : State) : Host.Outcome State Fault Refusal := .next ((s.setIe true).goTo 4)

end Sys2Proof.Machine
end

