-- ==== Sys2Proof/Machine/Flags.lean ====
section
/-! DEFINITION. The computations on the two flags, `SWITCH` and `DIR` (40_edge_detector.md R121 to R123). The block
has no condition codes (R122). -/

namespace Sys2Proof.Machine

/-- The change mask, `cur XOR HIST` (R121). -/
def changed (cur hist : Byte) : Byte := cur ^^^ hist

/-- `tgl_sw(cur, HIST)` (R121). -/
def tglSw (p : Params) (cur hist : Byte) : Bool := (changed cur hist).getLsbD p.swBit.val

/-- `tgl_dir(cur, HIST)` (R121). -/
def tglDir (p : Params) (cur hist : Byte) : Bool := (changed cur hist).getLsbD p.dirBit.val

/-- A flag word with its low bit inverted when `t` holds; bits 7:1 stay (R91, R122). -/
def toggleIf (t : Bool) (flag : Byte) : Byte := if t then flag ^^^ 0x01 else flag

/-- "Enabled" is any non-zero switch word (R185, D8; log entry 19). -/
def enabled (sw : Byte) : Bool := decide (sw ≠ 0x00)

end Sys2Proof.Machine
end

