-- ==== Sys2Proof/Machine/ControlLoop.lean ====
section
/-! DEFINITION. The set-up phase and the phases of the control loop (43_control_loop.md R181 to R192). -/

namespace Sys2Proof.Machine

/-- `SETUP` (R181): the two requests in this order (D27). -/
def execSetup (s : State) : Host.Outcome State Fault Refusal := .next (((s.issue .initAdc).issue .initPwm).goTo 1)

/-- `SAMPLE` (R182): the sample on the converter's `W_ADC` wires. -/
def execSample (adc : Nat) (s : State) : Host.Outcome State Fault Refusal :=
  .next ((s.setSample (truncTo s.par.wAdc adc)).goTo 5)

/-- `MAP` (R183). -/
def execMap (s : State) : Host.Outcome State Fault Refusal :=
  .next ((s.setCalv (mapUnit s.par s.sample s.calLo s.calHi s.par.outLo s.par.outHi)).goTo 6)

/-- `REPORT` (R184). -/
def execReport (s : State) : Host.Outcome State Fault Refusal :=
  .next ((s.emit ⟨.stSample, s.sample, s.calv⟩).goTo 7)

/-- `RDSW` (R185): one read of `SWITCH`, latched and branched on. -/
def execRdsw (s : State) : Host.Outcome State Fault Refusal :=
  .next ((s.setSwL s.switch).goTo (if enabled s.switch then 8 else 11))

/-- `RDDIR` (R186). -/
def execRddir (s : State) : Host.Outcome State Fault Refusal := .next ((s.setDirL s.dir).goTo 9)

/-- `DRIVE` (R187), with the invalid-configuration branch (R191, R220, D22; log entry 19). -/
def execDrive (s : State) : Host.Outcome State Fault Refusal :=
  if s.dirL = 0x00 then .next ((s.setDout 0b10).goTo 10)
  else if s.dirL = 0x01 then .next ((s.setDout 0b01).goTo 10)
  else .next ((s.emit ⟨.stDirerr, uval s.dirL, 0⟩).goTo 10)

/-- `PWMWR` (R188, R195). -/
def execPwmwr (s : State) : Host.Outcome State Fault Refusal := .next ((s.setOcr (act s.par s.calv)).goTo 13)

/-- `OFFOUT` (R189). -/
def execOffout (s : State) : Host.Outcome State Fault Refusal := .next ((s.setDout 0b00).goTo 12)

/-- `OFFRPT` (R190). -/
def execOffrpt (s : State) : Host.Outcome State Fault Refusal := .next ((s.emit ⟨.stOff, 0, 0⟩).goTo 13)

/-- `SLEEP` (R192): one step, whatever its length (D28; log entry 21). -/
def execSleep (s : State) : Host.Outcome State Fault Refusal := .next (s.goTo 4)

end Sys2Proof.Machine
end

