-- ==== Sys2Proof/Machine/Detector.lean ====
section
/-! DEFINITION. The edge-change detector (40_edge_detector.md). -/

namespace Sys2Proof.Machine

/-- The body of `EDGE` (R122): every read is of the state before the step; the switch's record comes before the
direction's (R124, D17), each with the flag's new value (D18). -/
def edgeBody (cur : Byte) (s : State) : State :=
  ((s.setDetector cur (toggleIf (tglSw s.par cur s.hist) s.switch) (toggleIf (tglDir s.par cur s.hist) s.dir)).emitIf
      (tglSw s.par cur s.hist) ⟨.stSwitch, uval (toggleIf (tglSw s.par cur s.hist) s.switch), 0⟩).emitIf
    (tglDir s.par cur s.hist) ⟨.stDir, uval (toggleIf (tglDir s.par cur s.hist) s.dir), 0⟩

/-- `EDGE cur` (R122), taken while `IE = 1` (R120) and without effect while `IE = 0` (R230). -/
def execEdge (cur : Byte) (s : State) : Host.Outcome State Fault Refusal := .next (s.takeEvent (edgeBody cur))

end Sys2Proof.Machine
end

