-- ==== Sys2Proof/Machine/Mapper.lean ====
section
/-! DEFINITION. The range mapper as an operation of its own (41_range_mapper.md). -/

namespace Sys2Proof.Machine

/-- `map` (R140), evaluated on its own operand wires, `W_ADC` and `W_OCR` bits wide (R99): its result stands on the result wires, and it reads and writes
no state of the block (R150; log entry 10). -/
def execMapFn (value srcLow srcHigh dstLow dstHigh : Nat) (s : State) :
    Host.Outcome State Fault Refusal :=
  .next (s.setMapOut (mapUnit s.par (truncTo s.par.wAdc value) (truncTo s.par.wAdc srcLow) (truncTo s.par.wAdc srcHigh)
    (truncTo s.par.wOcr dstLow) (truncTo s.par.wOcr dstHigh)))

end Sys2Proof.Machine
end

