-- ==== Sys2Proof/Machine/Multiplexer.lean ====
section
/-! DEFINITION. The rows of the drive multiplexer (30_encoding.md R93, 43_control_loop.md R191, R193): what a motor
state selects, as one operation. They write neither `PH` nor a latch (log entry 11). -/

namespace Sys2Proof.Machine

/-- `DRV_OFF`: both outputs low, no write of `OCR`, `ST_OFF`; `DIR_L` is not read. -/
def execDrvOff (_dirL : Byte) (s : State) : Host.Outcome State Fault Refusal :=
  .next ((s.setDout 0b00).emit ⟨.stOff, 0, 0⟩)

/-- `DRV_FWD`: outputs (high, low), `OCR` written. -/
def execDrvFwd (s : State) : Host.Outcome State Fault Refusal := .next ((s.setDout 0b10).setOcr (act s.par s.calv))

/-- `DRV_REV`: outputs (low, high), `OCR` written. -/
def execDrvRev (s : State) : Host.Outcome State Fault Refusal := .next ((s.setDout 0b01).setOcr (act s.par s.calv))

/-- `DRV_ERR`: `DOUT` unchanged, `ST_DIRERR` with the selector's `DIR_L`, `OCR` written (R191, D22). -/
def execDrvErr (dirL : Byte) (s : State) : Host.Outcome State Fault Refusal :=
  .next ((s.emit ⟨.stDirerr, uval dirL, 0⟩).setOcr (act s.par s.calv))

end Sys2Proof.Machine
end

