-- ==== Sys2Proof/Machine/Dispatch.lean ====
section
/-! DEFINITION. One arm for each row of spec/opcode_table.json. -/

namespace Sys2Proof.Machine

/-- The meaning of an operation (43_control_loop.md, 42_calibrator.md, 40_edge_detector.md, 41_range_mapper.md). -/
def exec (i : Instr) (s : State) : Host.Outcome State Fault Refusal :=
  match i with
  | .setup => Sys2Proof.Machine.execSetup s
  | .calinit => Sys2Proof.Machine.execCalinit s
  | .calsmp draw => Sys2Proof.Machine.execCalsmp draw s
  | .calend => Sys2Proof.Machine.execCalend s
  | .sample adc => Sys2Proof.Machine.execSample adc s
  | .mapPhase => Sys2Proof.Machine.execMap s
  | .report => Sys2Proof.Machine.execReport s
  | .rdsw => Sys2Proof.Machine.execRdsw s
  | .rddir => Sys2Proof.Machine.execRddir s
  | .drive => Sys2Proof.Machine.execDrive s
  | .pwmwr => Sys2Proof.Machine.execPwmwr s
  | .offout => Sys2Proof.Machine.execOffout s
  | .offrpt => Sys2Proof.Machine.execOffrpt s
  | .sleep => Sys2Proof.Machine.execSleep s
  | .edge cur => Sys2Proof.Machine.execEdge cur s
  | .mapFn value srcLow srcHigh dstLow dstHigh => Sys2Proof.Machine.execMapFn value srcLow srcHigh dstLow dstHigh s
  | .drvOff dirL => Sys2Proof.Machine.execDrvOff dirL s
  | .drvFwd => Sys2Proof.Machine.execDrvFwd s
  | .drvRev => Sys2Proof.Machine.execDrvRev s
  | .drvErr dirL => Sys2Proof.Machine.execDrvErr dirL s

end Sys2Proof.Machine
end

