-- ==== Sys2Proof/Machine/Fetch.lean ====
section
/-! DEFINITION. What moves next: the next entry of the environment's script, and when the script is empty the
environment's free choices (00_scope.md R5, 60_exceptions.md R224, 30_encoding.md R105). -/

namespace Sys2Proof.Machine

/-- Draws and mapper operands are values of the instance's widths (R9, R99; log entry 13). -/
def operandCheck (p : Params) (i : Instr) : Except Refusal Unit :=
  if operandsFit p i then .ok () else .error .operandTooWide

/-- Whether a decoded stimulus is admitted in a state. A scheduled phase must be the one `PH` names, with a draw of the
converter's width, and a scheduled event needs `IE = 1` (R105, R120; test program P8). The mapper's operands must be of
its wires' widths. Every other stimulus is admitted in every state: an event that is only presented is no step of the
block while `IE = 0`, and `takeEvent` says so (log entries 8, 9). -/
def admission (st : Stimulus) (c : Command) (s : State) : Except Refusal Unit :=
  match st, c with
  | .sched _, .run (.edge _) => if s.ie then .ok () else .error .eventMasked
  | .sched _, .run i => if phaseCode i = some s.ph then operandCheck s.par i else .error .phaseMismatch
  | .sched _, .reset => .ok ()
  | .evt _, _ => .ok ()
  | .mux _, _ => .ok ()
  | .func value srcLow srcHigh dstLow dstHigh, _ => operandCheck s.par (.mapFn value srcLow srcHigh dstLow dstHigh)

/-- The environment's free answer to `AdcRead()`, a value of the instance's `W_ADC` bits (R9, D35; log entry 7). -/
def freeSample (s : State) : Nat := (Config.freeAdc s.par.wAdc s.par.adcCh s.tick).toNat

/-- The environment's free choice with nothing scripted: an event when one is presented and `IE = 1`, otherwise the
phase `PH` names with its draws free (R180, R224, D13, D15, D32, D35; log entry 7). -/
def freeInstr (s : State) : Except DecodeError Instr :=
  match (if s.ie then Config.freeEvent s.par.period s.tick else none) with
  | some cur => .ok (.edge cur)
  | none =>
    phaseInstr s.ph
      (if Config.freeExpired s.par.calDuration s.tick then none else some (freeSample s)) (freeSample s)

/-- The next command, and the state with its stimulus consumed (or, with nothing scripted, its draw counted). -/
def fetch (s : State) : Except Refusal (Command × State) :=
  match s.script with
  | [] =>
    match freeInstr s with
    | .ok i => .ok (.run i, { s with tick := s.tick + 1 })
    | .error e => .error (.undecodable e)
  | st :: rest =>
    match decode st with
    | .error e => .error (.undecodable e)
    | .ok c =>
      match admission st c s with
      | .error r => .error r
      | .ok _ => .ok (c, { s with script := rest })

/-- The state in which a stimulus is the next thing that happens: it heads the script, a phase has its code in
`PH`, and an event finds `IE = 1`. -/
def State.present (s : State) (st : Stimulus) : State :=
  match decode st with
  | .ok (.run (.edge _)) => { s with script := st :: s.script, ie := true }
  | .ok (.run i) => { s with script := st :: s.script, ph := (phaseCode i).getD s.ph }
  | .ok .reset => { s with script := st :: s.script }
  | .error _ => { s with script := st :: s.script }

/-- Run a fetched command, given the meaning of operations. -/
def runCommand (run : Instr → State → Host.Outcome State Fault Refusal) (c : Command) (s : State) :
    Host.Outcome State Fault Refusal :=
  match c with
  | .run i => run i s
  | .reset => .next s.powerUp

end Sys2Proof.Machine
end

