-- ==== Sys2Proof/Machine/Step.lean ====
section
/-! DEFINITION. One step of the machine: an execution is one total order of steps, each a phase, an `EDGE` or a reset
(20_memory.md R74). -/

namespace Sys2Proof.Machine

/-- One step: what the environment presents next, run whole. -/
def step (s : State) : Host.Outcome State Fault Refusal :=
  match fetch s with
  | .error r => .refused r
  | .ok (c, s₁) => runCommand exec c s₁

/-- The state whose next step fetches and runs the instruction of a table word (log entries 14, 22). -/
def State.withFetchWord (s : State) (nbits w : Nat) : State := s.present (tableStimulus nbits w)

end Sys2Proof.Machine
end

