-- ==== Sys2Proof/Safety.lean ====
section
/-! DEFINITION. What counts as a good state and a good run of the block, in the terms the statements use: the value,
masking and path invariants of 10_state.md R31 and 42_calibrator.md R164 to R166, and short runs of operations. -/

namespace Sys2Proof.Machine

/-! ## What moves next -/

/-- A stimulus of the block itself: a schedule word or an event, not wires driven alone (log entry 10). -/
def stimulusOfBlock (st : Stimulus) : Bool :=
  match st with
  | .sched _ => true
  | .evt _ => true
  | .mux _ => false
  | .func _ _ _ _ _ => false

/-- The next step is one of the block's own. -/
def State.blockNext (s : State) : Bool :=
  match s.script with
  | [] => true
  | st :: _ => stimulusOfBlock st

/-- The next step is the power-up reset. -/
def State.resetNext (s : State) : Bool :=
  match s.script with
  | [] => false
  | st :: _ =>
    match decode st with
    | .ok .reset => true
    | .ok (.run _) => false
    | .error _ => false

/-! ## Good states -/

/-- A flag word that is 0 or 1 (R31, R91). -/
def flagLegal (f : Byte) : Prop := f = 0x00 ∨ f = 0x01

/-- A value of a two's-complement word of `N` bits (R7). -/
def inSigned (width : Nat) (v : Int) : Prop := -2 ^ (width - 1) ≤ v ∧ v < 2 ^ (width - 1)

/-- Every register whose width is a parameter of the instance holds a value of that width (R23, R24, R25, R29), and so
do the result wires of the mapper (R99). -/
structure State.Fits (s : State) : Prop where
  calLo : s.calLo < 2 ^ s.par.wAdc
  calHi : s.calHi < 2 ^ s.par.wAdc
  sample : s.sample < 2 ^ s.par.wAdc
  ocr : s.ocr < 2 ^ s.par.wOcr
  calv : inSigned s.par.wInt s.calv
  mapOut : inSigned s.par.wInt s.mapOut

/-- What every step keeps, from reset on. -/
structure State.Inv (s : State) : Prop where
  /-- The constraints on the parameters (R4). -/
  parWf : s.par.wf = true
  /-- The registers hold values of their widths. -/
  fits : s.Fits
  /-- `PH` names a phase (R32, R102). -/
  phaseLegal : s.ph.toNat < 14
  /-- Events are masked exactly up to `CALEND` (R33, R165, R251). -/
  maskedUntilLoop : s.ie = decide (4 ≤ s.ph.toNat)
  /-- `SWITCH` is 0 or 1 (R31). -/
  switchLegal : flagLegal s.switch
  /-- `DIR` is 0 or 1 (R31). -/
  dirLegal : flagLegal s.dir
  /-- Where `DRIVE` reads it, `DIR_L` is a value `DIR` had (R27, R31); before `RDDIR` it is unwritten (R39, R40). -/
  dirLatchLegal : s.ph = 9 → flagLegal s.dirL
  /-- `DOUT` is never `0b11` (R93). -/
  doutLegal : s.dout ≠ 0b11
  /-- From `CALINIT` on the range is ordered, or still the initial inverted one (R164, R166). -/
  rangeLegal : 2 ≤ s.ph.toNat → s.calLo ≤ s.calHi ∨ (s.calLo = rawTop s.par ∧ s.calHi = 0)
  /-- The enabled path is the one `SW_L` chose (R185). -/
  enabledPath : s.ph = 8 ∨ s.ph = 9 ∨ s.ph = 10 → s.swL ≠ 0x00
  /-- The disabled path is the one `SW_L` chose (R185). -/
  disabledPath : s.ph = 11 ∨ s.ph = 12 → s.swL = 0x00

/-- Two states that differ at most in the registers R39 calls "unwritten", each only while the sequencer has not
written it in the current phase of its life (R40): everything else agrees. `SW_L` and `OCR` are read by no
phase. -/
structure AgreeOnWritten (s t : State) : Prop where
  ph : s.ph = t.ph
  ie : s.ie = t.ie
  switch : s.switch = t.switch
  dir : s.dir = t.dir
  hist : s.hist = t.hist
  dout : s.dout = t.dout
  stat : s.stat = t.stat
  req : s.req = t.req
  par : s.par = t.par
  script : s.script = t.script
  tick : s.tick = t.tick
  /-- `CAL_LO` and `CAL_HI` are written by `CALINIT`, phase 1. -/
  range : 2 ≤ s.ph.toNat → s.calLo = t.calLo ∧ s.calHi = t.calHi
  /-- `SAMPLE` is written by phase 4 and read by phases 5 and 6. -/
  sample : s.ph = 5 ∨ s.ph = 6 → s.sample = t.sample
  /-- `CALV` is written by phase 5 and read by phases 6 and 10. -/
  calv : 6 ≤ s.ph.toNat ∧ s.ph.toNat ≤ 10 → s.calv = t.calv
  /-- `DIR_L` is written by phase 8 and read by phase 9. -/
  dirL : s.ph = 9 → s.dirL = t.dirL

/-! ## Short runs of operations -/

/-- Go on with a next state; a fault or a refusal stays. -/
def andThen (o : Host.Outcome State Fault Refusal) (f : State → Host.Outcome State Fault Refusal) :
    Host.Outcome State Fault Refusal :=
  match o with
  | .next s => f s
  | .fault r => .fault r
  | .refused r => .refused r

/-- Operations one after the other, nothing in between. -/
def runAll (is : List Instr) (s : State) : Host.Outcome State Fault Refusal :=
  match is with
  | [] => .next s
  | i :: rest => andThen (exec i s) (runAll rest)

/-- The drive decision of one iteration (R194): the phases from `RDSW` to `PWMWR`, or to `OFFRPT`, with no event in
between. -/
def drivePass (s : State) : Host.Outcome State Fault Refusal :=
  andThen (exec .rdsw s) fun s₁ =>
    if s₁.ph = 8 then runAll [.rddir, .drive, .pwmwr] s₁ else runAll [.offout, .offrpt] s₁

/-- The schedule words of a calibration window with these samples (R105): one sampling `CALSMP` each, then the
expiring one. -/
def calibrationScript (samples : List Nat) : List Stimulus :=
  samples.map (fun v => encode (.calsmp (some v))) ++ [encode (.calsmp none)]

end Sys2Proof.Machine
end

