-- ==== Sys2Proof/Certificates/Slice0/Obligations.lean ====
section
/-! DEFINITION. The statements for the provers. Each says which passage of spec/ it formalises; a clause that rests on
a decision of the spec (D<n>) or of the model says so. -/

open Sys2Proof Sys2Proof.Machine

/-! ## Reset -/

/-- 10_state.md section 6 (R39): the values after reset the spec gives, for every instance. `DIR`, `HIST`, `DOUT` and
`IE` are the spec's decisions D6, D5, D25, D14. The registers R39 calls "unwritten" are not mentioned. -/
def Obligations.ResetGivesSpecifiedValues : Prop :=
  ∀ p : Params,
    (State.resetWith p).switch = 0x00 ∧ (State.resetWith p).dir = 0x00 ∧ (State.resetWith p).hist = p.histReset ∧
    (State.resetWith p).dout = 0b00 ∧ (State.resetWith p).ph = 0 ∧ (State.resetWith p).ie = false ∧
    (State.resetWith p).stat = [] ∧ (State.resetWith p).req = [] ∧ (State.resetWith p).par = p

/-- 70_reset_and_hazards.md section 1 (R250): `reset` from any state whatever leads to the reset state, and nothing of
the block survives it: two blocks of one instance in one environment are the same afterwards. That they are the same in
the registers R39 calls "unwritten" too, `OCR` among them, is the model's choice (log entry 4: one value for every
power-up, which the hardware does not promise), and that the environment (script, draw number) goes on is the model's
reading (log entry 15). -/
def Obligations.PowerUpForgetsEverything : Prop :=
  ∀ (s s' : State) (rest : List Stimulus), s.par = s'.par → s.tick = s'.tick →
    ∃ t, step { s with script := encodeReset :: rest } = .next t ∧
      step { s' with script := encodeReset :: rest } = .next t ∧
      t = { State.resetWith s.par with script := rest, tick := s.tick }

/-! ## One operation: its code, its effect, its frame, its completion -/

/-- R181: `SETUP` issues the two initialisation requests, and nothing else changes but `PH`. The order of the two is
the spec's decision D27. -/
def Obligations.SetupIssuesBothRequests : Prop :=
  phaseCode .setup = some 0 ∧
    ∀ s : State, exec .setup s = .next { s with req := s.req ++ [.initAdc, .initPwm], ph := 1 }

/-- R161: `CALINIT` masks events and sets the initial bounds, for every width of the samples; `2^W_ADC - 1` is the spec's
decision D12. -/
def Obligations.CalinitOpensTheWindow : Prop :=
  phaseCode .calinit = some 1 ∧
    ∀ s : State, exec .calinit s = .next { s with ie := false, calLo := 2 ^ s.par.wAdc - 1, calHi := 0, ph := 2 }

/-- R162: `CALSMP` tracks the running minimum and maximum of the samples it draws, and goes on to `CALEND` without a
sample when the window has run out. That expiry is tested first is the spec's decision D13. A sample is `W_ADC` bits wide
(R9), and of a wider number only those bits are seen, which is the model's reading (log entry 13). -/
def Obligations.CalsmpTracksMinimumAndMaximum : Prop :=
  ∀ s : State,
    (∀ v : Nat, phaseCode (.calsmp (some v)) = some 2 ∧
      exec (.calsmp (some v)) s = .next { s with
        calLo := min s.calLo (v % 2 ^ s.par.wAdc), calHi := max s.calHi (v % 2 ^ s.par.wAdc), ph := 2 }) ∧
    phaseCode (.calsmp none) = some 2 ∧ exec (.calsmp none) s = .next { s with ph := 3 }

/-- R163: `CALEND` unmasks events and starts the loop; the instant is the spec's decision D14. -/
def Obligations.CalendUnmasksEvents : Prop :=
  phaseCode .calend = some 3 ∧ ∀ s : State, exec .calend s = .next { s with ie := true, ph := 4 }

/-- R182: `SAMPLE` latches the one raw sample of the iteration, whatever `W_ADC`-bit value it is. Of a wider number only
those bits are seen, which is the model's reading (log entry 13). -/
def Obligations.SampleLatchesTheDraw : Prop :=
  ∀ (s : State) (v : Nat), phaseCode (.sample v) = some 4 ∧
    exec (.sample v) s = .next { s with sample := v % 2 ^ s.par.wAdc, ph := 5 } ∧
    (v < 2 ^ s.par.wAdc → exec (.sample v) s = .next { s with sample := v, ph := 5 })

/-- R183 with R140 to R146: `MAP` leaves in `CALV` the exact integer the mapper's formula gives for the sample, the
calibrated range and the duty domain, `OUT_LO` when the range is degenerate, in every instance R4 admits and for every
content of the registers' widths. Widths, order and rounding are the spec's decisions D9, D10, D11. -/
def Obligations.MapPhaseRescalesExactly : Prop :=
  phaseCode .mapPhase = some 5 ∧
    ∀ s : State, ∃ t, exec .mapPhase s = .next t ∧ t = { s with calv := t.calv, ph := 6 } ∧
      (s.par.wf = true → s.Fits →
        (s.calHi = s.calLo → t.calv = s.par.outLo) ∧
        (s.calHi ≠ s.calLo →
          t.calv = (s.par.outLo : Int) +
            (((s.sample : Int) - s.calLo) * ((s.par.outHi : Int) - s.par.outLo)).tdiv ((s.calHi : Int) - s.calLo)))

/-- R184: `REPORT` emits one `ST_SAMPLE` with the raw and the calibrated value, whatever the flags, and changes nothing
else but `PH`. -/
def Obligations.ReportEmitsRawAndCalibrated : Prop :=
  phaseCode .report = some 6 ∧
    ∀ s : State, exec .report s = .next { s with stat := s.stat ++ [⟨.stSample, s.sample, s.calv⟩], ph := 7 }

/-- R185: `RDSW` latches `SWITCH` and branches on it. "Enabled" for any non-zero value is the spec's decision D8. -/
def Obligations.RdswLatchesAndBranches : Prop :=
  phaseCode .rdsw = some 7 ∧
    ∀ s : State, (s.switch = 0x00 → exec .rdsw s = .next { s with swL := s.switch, ph := 11 }) ∧
      (s.switch ≠ 0x00 → exec .rdsw s = .next { s with swL := s.switch, ph := 8 })

/-- R186: `RDDIR` latches `DIR`. -/
def Obligations.RddirLatchesDirection : Prop :=
  phaseCode .rddir = some 8 ∧ ∀ s : State, exec .rddir s = .next { s with dirL := s.dir, ph := 9 }

/-- R187, R191: the three branches of `DRIVE`, all of which go on to `PWMWR`. That `DOUT` stays on the third, and that
`PWMWR` follows, is the spec's decision D22. -/
def Obligations.DriveSelectsOneOutput : Prop :=
  phaseCode .drive = some 9 ∧
    ∀ s : State, (s.dirL = 0x00 → exec .drive s = .next { s with dout := 0b10, ph := 10 }) ∧
      (s.dirL = 0x01 → exec .drive s = .next { s with dout := 0b01, ph := 10 }) ∧
      (2 ≤ s.dirL.toNat →
        exec .drive s = .next { s with stat := s.stat ++ [⟨.stDirerr, s.dirL.toNat, 0⟩], ph := 10 })

/-- R188, R195: in the reference design (`ACT_CLAMP = 0`) `PWMWR` writes `CALV` modulo `2^W_OCR` to the compare
register, and with `ACT_CLAMP = 1` (the spec's decision D23) the value of the duty domain next to `CALV`. -/
def Obligations.PwmwrWritesTheActuatorValue : Prop :=
  phaseCode .pwmwr = some 10 ∧
    ∀ s : State, ∃ t, exec .pwmwr s = .next t ∧ t = { s with ocr := t.ocr, ph := 13 } ∧
      (s.par.actClamp = false → (t.ocr : Int) = s.calv % 2 ^ s.par.wOcr) ∧
      (s.par.actClamp = true →
        (t.ocr : Int) = max (min (s.par.outLo : Int) s.par.outHi) (min (max (s.par.outLo : Int) s.par.outHi) s.calv))

/-- R189: `OFFOUT` sets both direction outputs low and writes nothing else but `PH`; `OCR` keeps its value. -/
def Obligations.OffoutSetsBothOutputsLow : Prop :=
  phaseCode .offout = some 11 ∧ ∀ s : State, exec .offout s = .next { s with dout := 0b00, ph := 12 }

/-- R190: `OFFRPT` reports "motor switched off" every time, and changes nothing else but `PH`. -/
def Obligations.OffrptReportsMotorOff : Prop :=
  phaseCode .offrpt = some 12 ∧
    ∀ s : State, exec .offrpt s = .next { s with stat := s.stat ++ [⟨.stOff, 0, 0⟩], ph := 13 }

/-- R192: `SLEEP` changes nothing but `PH`; that it is one step is the spec's decision D28. -/
def Obligations.SleepStartsTheNextIteration : Prop :=
  phaseCode .sleep = some 13 ∧ ∀ s : State, exec .sleep s = .next { s with ph := 4 }

/-- R122, R124: `EDGE` with `IE = 1` replaces the history, inverts the low bit of each flag whose input bit changed,
and appends a record for each such flag with its new value; nothing else changes. The order of the two records and
their payload are the spec's decisions D17, D18. -/
def Obligations.EdgeTogglesChangedFlags : Prop :=
  ∀ (s : State) (cur : Byte), s.ie = true →
    ∃ (t : State) (sw dr : Bool), exec (.edge cur) s = .next t ∧
      (sw = true ↔ s.hist.getLsbD s.par.swBit ≠ cur.getLsbD s.par.swBit) ∧
      (dr = true ↔ s.hist.getLsbD s.par.dirBit ≠ cur.getLsbD s.par.dirBit) ∧
      t = { s with
        hist := cur
        switch := s.switch ^^^ (if sw then 0x01 else 0x00)
        dir := s.dir ^^^ (if dr then 0x01 else 0x00)
        stat := s.stat ++ (if sw then [⟨.stSwitch, t.switch.toNat, 0⟩] else []) ++
          (if dr then [⟨.stDir, t.dir.toNat, 0⟩] else []) }

/-- R230, R120: an event presented while `IE = 0` has no effect on the block, as an operation and as a stimulus that the
step consumes. That the environment may present it again is the spec's decision D15; that `exec` answers the same
state is the model's reading (log entry 8). -/
def Obligations.MaskedEventHasNoEffect : Prop :=
  ∀ (s : State) (cur : Byte), s.ie = false →
    exec (.edge cur) s = .next s ∧
    ∀ rest : List Stimulus, s.script = .evt cur :: rest → step s = .next { s with script := rest }

/-- R140, R150: `map` evaluated alone gives the exact integer of its formula on its result wires, for every value of its
operands' widths in every instance R4 admits, and changes nothing else. The result wires are the model's own (log entry
10). Widths, order and rounding are the spec's decisions D9, D10, D11. -/
def Obligations.MapAloneChangesNoState : Prop :=
  ∀ (s : State) (value srcLow srcHigh dstLow dstHigh : Nat),
    ∃ t, exec (.mapFn value srcLow srcHigh dstLow dstHigh) s = .next t ∧ t = { s with mapOut := t.mapOut } ∧
      (s.par.wf = true → operandsFit s.par (.mapFn value srcLow srcHigh dstLow dstHigh) = true →
        (srcHigh = srcLow → t.mapOut = dstLow) ∧
        (srcHigh ≠ srcLow →
          t.mapOut = (dstLow : Int) +
            (((value : Int) - srcLow) * ((dstHigh : Int) - dstLow)).tdiv ((srcHigh : Int) - srcLow)))

/-- R93, R193: the three rows of the multiplexer for the motor states OFF, FORWARD, REVERSE: what each writes, and that
it writes nothing else. As operations of their own they stand for the selection, not for a phase (log entry 11). -/
def Obligations.MultiplexerRowsDriveTheMotor : Prop :=
  ∀ s : State,
    (∀ d : Byte, exec (.drvOff d) s = .next { s with dout := 0b00, stat := s.stat ++ [⟨.stOff, 0, 0⟩] }) ∧
    exec .drvFwd s = .next { s with dout := 0b10, ocr := act s.par s.calv } ∧
    exec .drvRev s = .next { s with dout := 0b01, ocr := act s.par s.calv }

/-- R93, R191: the invalid configuration is reported with the selector's `DIR_L`, `DOUT` stays and `OCR` is written: the
spec's decision D22. As an operation of its own the row stands for the selection, not for a phase (log entry 11). -/
def Obligations.MultiplexerErrorRowReports : Prop :=
  ∀ (s : State) (d : Byte), exec (.drvErr d) s =
    .next { s with stat := s.stat ++ [⟨.stDirerr, d.toNat, 0⟩], ocr := act s.par s.calv }

/-! ## Steps -/

/-- 20_memory.md R74, 30_encoding.md R105: when the next stimulus decodes to an operation and the schedule may place it
here (a phase where `PH` names it, a scheduled event where `IE = 1`, draws and operands of the instance's widths), the
step is that operation and nothing else. That wires of the mapper and of the multiplexer driven alone are steps too is the
model's reading, since R74 knows no such step and R94 (3) no separate decoding of `map` (log entry 10). -/
def Obligations.StepRunsTheDecodedOperation : Prop :=
  ∀ (s : State) (st : Stimulus) (rest : List Stimulus) (i : Instr),
    s.script = st :: rest → decode st = .ok (.run i) → operandsFit s.par i = true →
    (∀ p, phaseCode i = some p → s.ph = p) → (phaseCode i = none → stimulusOfBlock st = true → s.ie = true) →
    step s = exec i { s with script := rest }

/-- 60_exceptions.md R224, R230: with nothing scripted, the step is the event the environment's free choice presents if
`IE = 1`, and otherwise the phase `PH` names, its draws of the instance's width; the draw is counted (log entry 7). -/
def Obligations.FreeStepIsAnEventOrThePhase : Prop :=
  ∀ s : State, s.script = [] → s.ph.toNat < 14 →
    match (if s.ie then Config.freeEvent s.par.period s.tick else none) with
    | some cur => step s = exec (.edge cur) { s with tick := s.tick + 1 }
    | none => ∃ i, phaseCode i = some s.ph ∧ operandsFit s.par i = true ∧
        step s = exec i { s with tick := s.tick + 1 }

/-- 30_encoding.md R102 (the spec's decision D26): a state whose `PH` holds 14 or 15 has no foreground step, free or
scheduled, whatever the argument and whether or not events are masked: with nothing scripted only an event the
environment presents while `IE = 1` is left (R224; log entry 7). -/
def Obligations.ReservedPhaseIsRefused : Prop :=
  ∀ s : State, 14 ≤ s.ph.toNat →
    (s.script = [] → (s.ie = true → Config.freeEvent s.par.period s.tick = none) →
      step s = .refused (.undecodable .reservedPhase)) ∧
    ∀ (a : BitVec 16) (rest : List Stimulus), s.script = .sched (schedWord 0 s.ph a) :: rest →
      step s = .refused (.undecodable .reservedPhase)

/-- 30_encoding.md R105, test program P8: a scheduled phase that is not the one `PH` names, and a scheduled event while
`IE = 0`, are refused; so is a draw wider than the converter's `W_ADC` bits (R9; that it is refused is the model's
reading, log entry 13). -/
def Obligations.IllFormedScheduleIsRefused : Prop :=
  ∀ (s : State) (rest : List Stimulus),
    (∀ (i : Instr) (p : PhaseCode), wellFormed i = true → phaseCode i = some p → s.script = encode i :: rest →
      (s.ph ≠ p → step s = .refused .phaseMismatch) ∧
      (s.ph = p → operandsFit s.par i = false → step s = .refused .operandTooWide)) ∧
    (∀ cur : Byte, s.ie = false → s.script = encode (.edge cur) :: rest → step s = .refused .eventMasked)

/-- R222: no operation fails: every operation, on every operand and in every state, answers a next state. That `EDGE` with
`IE = 0`, which R120 does not enable, answers the same state (log entry 8), that operands wider than their wires are taken
(log entry 13), that a phase does not test `PH` (log entry 9) and that the rows of wires driven alone are operations (log
entries 10, 11) is the model's reading. -/
def Obligations.EveryOperationCompletes : Prop := ∀ (i : Instr) (s : State), ∃ t, exec i s = .next t

/-- R222, R102, R105: a step is refused for one of five reasons only, each with its cause: a reserved phase, a stimulus
that stands for nothing, a masked scheduled event, a scheduled phase `PH` does not name, an operand wider than its wires.
That an operand wider than its wires (R9 and R99 give the widths, and no refusal) is refused, and that a word with stray
bits stands for nothing, is the model's reading (log entry 13). -/
def Obligations.StepIsRefusedOnlyForACause : Prop :=
  ∀ (s : State) (r : Refusal), step s = .refused r →
    (s.script = [] ∧ 14 ≤ s.ph.toNat ∧ r = .undecodable .reservedPhase) ∨
    (∃ st rest e, s.script = st :: rest ∧ decode st = .error e ∧ r = .undecodable e) ∨
    (∃ st rest i, s.script = st :: rest ∧ decode st = .ok (.run i) ∧
      (((∃ w, st = .sched w) ∧ (∃ cur, i = .edge cur) ∧ s.ie = false ∧ r = .eventMasked) ∨
        ((∃ w, st = .sched w) ∧ (∃ p, phaseCode i = some p ∧ p ≠ s.ph) ∧ r = .phaseMismatch) ∨
        (operandsFit s.par i = false ∧ r = .operandTooWide)))

/-- The interface's own law (log entries 14, 22): the next step after `withFetchWord` runs the instruction the decoder
reads from the table word, in the state `withFetchWord` leaves, its stimulus consumed, if its operands are of the
instance's widths (log entry 13). That the rows of wires driven alone are steps is log entry 10; that a one-byte phase
code has the draw 0, which R62 leaves free, is log entry 14. -/
def Obligations.FetchWordRunsTheTableRow : Prop :=
  ∀ (s : State) (nbits w : Nat) (i : Instr), decodeTableWord nbits w = some i → operandsFit s.par i = true →
    step (s.withFetchWord nbits w) = exec i { s.withFetchWord nbits w with script := s.script }

/-! ## Encoding -/

/-- 30_encoding.md R93, R95, R105: words written out from the spec's encodings decode to what they stand for.
That a selector stands for an operation of its own is the model's reading (log entry 10). -/
def Obligations.SpecWordsDecodeAsWritten : Prop :=
  decode (.sched 0x010000) = .ok (.run .calinit) ∧ decode (.sched 0x028000) = .ok (.run (.calsmp none)) ∧
  decode (.sched 0x020190) = .ok (.run (.calsmp (some 400))) ∧ decode (.sched 0x0401F4) = .ok (.run (.sample 500)) ∧
  decode (.sched 0x100010) = .ok (.run (.edge 0x10)) ∧ decode (.sched 0x200000) = .ok .reset ∧
  decode (.mux 0b100000000) = .ok (.run .drvFwd) ∧ decode (.mux 0b100000001) = .ok (.run .drvRev) ∧
  decode (.sched 0x0E0000) = .error .reservedPhase

/-- 30_encoding.md R93, R95, R96, R99, R105: no operand and no code is lost in an encoding. That a selector and the mapper's
operand tuple are encodings of operations of their own is the model's reading (log entry 10). -/
def Obligations.DecodeOfEncodeIsTheOperation : Prop :=
  ∀ i : Instr, wellFormed i = true → decode (encode i) = .ok (.run i)

/-- 30_encoding.md R93, R95, R99, R105: a schedule word, a selector or an operand tuple that decodes to an operation is
the encoding of that operation, which is well formed: no two words stand for one operation, and reserved words stand
for none. That stray bits are refused (log entry 13), and that a selector and an operand tuple stand for operations of
their own (log entry 10), is the model's reading. -/
def Obligations.EncodeOfDecodeIsTheWord : Prop :=
  ∀ (st : Stimulus) (i : Instr), (∀ pin, st ≠ .evt pin) → decode st = .ok (.run i) →
    encode i = st ∧ wellFormed i = true

/-- 30_encoding.md R93: a selector picks the row of the motor state its two flags select, whatever the switch word that
drives `en`. The row as an operation of its own is the model's reading (log entries 10, 11). -/
def Obligations.SelectorPicksTheMotorState : Prop :=
  ∀ sw dirL : Byte,
    decode (.mux (selectorWord (enabled sw) dirL)) =
      .ok (.run (match motorState sw dirL with
        | .off => .drvOff dirL
        | .forward => .drvFwd
        | .reverse => .drvRev
        | .invalid => .drvErr dirL))

/-! ## The edge detector -/

/-- R121: the change mask is one exactly where the snapshot differs from the history, and the two toggle signals are its
bits `SW_BIT` and `DIR_BIT`. -/
def Obligations.ChangeMaskMarksTheDifferingBits : Prop :=
  ∀ cur hist : Byte,
    (∀ k, k < 8 → ((changed cur hist).getLsbD k = true ↔ cur.getLsbD k ≠ hist.getLsbD k)) ∧
    ∀ p : Params, tglSw p cur hist = (changed cur hist).getLsbD p.swBit ∧
      tglDir p cur hist = (changed cur hist).getLsbD p.dirBit

/-- R123: the flags toggle independently: the new `SWITCH` depends on the old one and on the switch bits of the history
and the snapshot alone, and the new `DIR` on its own. (The spec derives this law from R122.) -/
def Obligations.FlagsToggleIndependently : Prop :=
  ∀ (s s' t t' : State) (cur cur' : Byte), s.ie = true → s'.ie = true → s.par = s'.par →
    exec (.edge cur) s = .next t → exec (.edge cur') s' = .next t' →
    (s.switch = s'.switch → s.hist.getLsbD s.par.swBit = s'.hist.getLsbD s.par.swBit →
      cur.getLsbD s.par.swBit = cur'.getLsbD s.par.swBit → t.switch = t'.switch) ∧
    (s.dir = s'.dir → s.hist.getLsbD s.par.dirBit = s'.hist.getLsbD s.par.dirBit →
      cur.getLsbD s.par.dirBit = cur'.getLsbD s.par.dirBit → t.dir = t'.dir)

/-- R125: an event without a change of a named bit updates the history and nothing else and emits nothing, and one whose
snapshot is the history changes nothing at all. -/
def Obligations.EventWithoutChangeIsANoop : Prop :=
  ∀ (s : State) (cur : Byte), s.ie = true →
    (cur = s.hist → exec (.edge cur) s = .next s) ∧
    (cur.getLsbD s.par.swBit = s.hist.getLsbD s.par.swBit → cur.getLsbD s.par.dirBit = s.hist.getLsbD s.par.dirBit →
      exec (.edge cur) s = .next { s with hist := cur })

/-- R127, R257: a press of either button or of both and its release, each seen by its own event, invert each pressed
button's flag twice and leave both flags and the history as they were; for each pressed button two records of its kind are
all that remains, in the order of the events (within one event, the spec's decision D17). -/
def Obligations.PressAndReleaseFold : Prop :=
  ∀ (s : State) (press : Byte), s.ie = true →
    ∃ sw₁ dr₁ sw₂ dr₂ : StatusRecord,
      sw₁.kind = .stSwitch ∧ dr₁.kind = .stDir ∧ sw₂.kind = .stSwitch ∧ dr₂.kind = .stDir ∧
      runAll [.edge press, .edge s.hist] s = .next { s with
        stat := s.stat ++
          (if press.getLsbD s.par.swBit = s.hist.getLsbD s.par.swBit then [] else [sw₁]) ++
          (if press.getLsbD s.par.dirBit = s.hist.getLsbD s.par.dirBit then [] else [dr₁]) ++
          (if press.getLsbD s.par.swBit = s.hist.getLsbD s.par.swBit then [] else [sw₂]) ++
          (if press.getLsbD s.par.dirBit = s.hist.getLsbD s.par.dirBit then [] else [dr₂]) }

/-- R226, R228: taking an event saves nothing and changes no control state: `PH`, `IE`, the latches, `SAMPLE` and `CALV`
are as before when it ends, and so the foreground goes on where it was. -/
def Obligations.EventSavesAndRestoresNothing : Prop :=
  ∀ (s t : State) (cur : Byte), s.ie = true → exec (.edge cur) s = .next t →
    t.ph = s.ph ∧ t.ie = true ∧ t.swL = s.swL ∧ t.dirL = s.dirL ∧ t.sample = s.sample ∧ t.calv = s.calv

/-- R225 (b), D20, D32: where a phase reads no flag and emits nothing, an event just before it and just after it lead to
one and the same state: `SAMPLE`, `MAP`, `DRIVE` on its two legal branches, `PWMWR`, `OFFOUT`, `SLEEP` (what they read and
write: R182, R183, R187, R188, R189, R192). -/
def Obligations.EventCommutesWithQuietPhases : Prop :=
  ∀ (s : State) (cur : Byte) (v : Nat) (i : Instr), s.ie = true →
    i = .sample v ∨ i = .mapPhase ∨ (i = .drive ∧ (s.dirL = 0x00 ∨ s.dirL = 0x01)) ∨ i = .pwmwr ∨ i = .offout ∨
      i = .sleep →
    ∃ t, runAll [.edge cur, i] s = .next t ∧ runAll [i, .edge cur] s = .next t

/-! ## Ownership and shared state -/

/-- 10_state.md R30, 20_memory.md R70, 43_control_loop.md R196, R199: who writes each register, each port and each
history (`SWITCH`, `DIR` and `HIST` are written by `EDGE` only); whatever an operation is not named for here, it leaves
unchanged. The parameters, the script and the draw number are written by no operation. That the rows `DRV_OFF`, `DRV_FWD`,
`DRV_REV`, `DRV_ERR` run alone write `DOUT`, `OCR` and `STAT` as R93 has it, and keep `PH` and the latches, is the model's
reading of the truth table, which R196 and R199 do not speak of (log entry 11, unsafe for these rows alone); that `map` run
alone keeps `PH` and everything else of the block is log entry 10. -/
def Obligations.EachRegisterHasItsWriters : Prop :=
  ∀ (i : Instr) (s t : State), exec i s = .next t →
    ((∀ c, i ≠ .edge c) → t.switch = s.switch ∧ t.dir = s.dir ∧ t.hist = s.hist) ∧
    (i ≠ .calinit → (∀ d, i ≠ .calsmp d) → t.calLo = s.calLo ∧ t.calHi = s.calHi) ∧
    ((∀ v, i ≠ .sample v) → t.sample = s.sample) ∧
    (i ≠ .mapPhase → t.calv = s.calv) ∧
    (i ≠ .rdsw → t.swL = s.swL) ∧
    (i ≠ .rddir → t.dirL = s.dirL) ∧
    (i ≠ .drive → i ≠ .offout → (∀ d, i ≠ .drvOff d) → i ≠ .drvFwd → i ≠ .drvRev → t.dout = s.dout) ∧
    (i ≠ .pwmwr → i ≠ .drvFwd → i ≠ .drvRev → (∀ d, i ≠ .drvErr d) → t.ocr = s.ocr) ∧
    (i ≠ .calinit → i ≠ .calend → t.ie = s.ie) ∧
    (i ≠ .setup → t.req = s.req) ∧
    ((∀ c, i ≠ .edge c) → i ≠ .report → i ≠ .drive → i ≠ .offrpt → (∀ d, i ≠ .drvOff d) → (∀ d, i ≠ .drvErr d) →
      t.stat = s.stat) ∧
    (phaseCode i = none → t.ph = s.ph) ∧
    t.par = s.par ∧ t.script = s.script ∧ t.tick = s.tick

/-- 10_state.md R36: `STAT` and `REQ` are append-only: no operation removes or reorders what they hold. The
rows of the multiplexer run alone are the model's operations (log entry 11). -/
def Obligations.HistoriesOnlyGrow : Prop :=
  ∀ (i : Instr) (s t : State), exec i s = .next t → s.stat <+: t.stat ∧ s.req <+: t.req

/-- 20_memory.md R75: an `EDGE` that toggles `SWITCH` is seen by the next `RDSW`, and one that toggles `DIR` by the next
`RDDIR`, whatever operations other than `EDGE` come between. Phases may stand there in any order, since a phase does not
test `PH` (log entry 9), and so may wires driven alone (log entries 10, 11). -/
def Obligations.ToggleIsSeenAtTheNextRead : Prop :=
  ∀ (s : State) (cur : Byte) (between : List Instr), s.ie = true → (∀ i ∈ between, ∀ c, i ≠ .edge c) →
    ∃ e t u : State, exec (.edge cur) s = .next e ∧
      runAll (.edge cur :: between ++ [.rdsw]) s = .next t ∧ t.swL = e.switch ∧
      runAll (.edge cur :: between ++ [.rddir]) s = .next u ∧ u.dirL = e.dir ∧
      (cur.getLsbD s.par.swBit ≠ s.hist.getLsbD s.par.swBit → t.swL = s.switch ^^^ 0x01) ∧
      (cur.getLsbD s.par.dirBit ≠ s.hist.getLsbD s.par.dirBit → u.dirL = s.dir ^^^ 0x01)

/-! ## The range mapper -/

/-- R142: a degenerate source range gives `dstLow` for every value and every destination, as an operation on the wires
and as phase `MAP`, in every instance R4 admits, and nothing is reported. -/
def Obligations.DegenerateRangeMapsToLow : Prop :=
  (∀ (p : Params) (value k dstLow dstHigh : Nat), p.wf = true → dstLow < 2 ^ p.wOcr →
    mapUnit p value k k dstLow dstHigh = dstLow) ∧
    ∀ s : State, s.par.wf = true → s.calLo = s.calHi →
      ∃ t, exec .mapPhase s = .next t ∧ t.calv = s.par.outLo ∧ t.stat = s.stat

/-- R148: for `srcLow < srcHigh` the ends of the source range map to the ends of the destination range, and the map is
monotonic in `value`, for every value, inside the source range or not. (Derived by the spec from R140, R143, R144.) -/
def Obligations.MapIsMonotonicWithExactEnds : Prop :=
  ∀ (p : Params) (lo hi dstLow dstHigh : Nat), p.wf = true → lo < hi → hi < 2 ^ p.wAdc →
    dstLow < 2 ^ p.wOcr → dstHigh < 2 ^ p.wOcr →
    mapUnit p lo lo hi dstLow dstHigh = dstLow ∧ mapUnit p hi lo hi dstLow dstHigh = dstHigh ∧
    ∀ v w : Nat, v ≤ w → w < 2 ^ p.wAdc →
      (dstLow ≤ dstHigh → mapUnit p v lo hi dstLow dstHigh ≤ mapUnit p w lo hi dstLow dstHigh) ∧
      (dstHigh ≤ dstLow → mapUnit p w lo hi dstLow dstHigh ≤ mapUnit p v lo hi dstLow dstHigh)

/-- R145, R148: a value inside the source range stays inside the destination range, and one outside is not clamped: it
lands on or beyond the end of the destination range it lies beyond, and strictly beyond where the slope carries it a whole
step. -/
def Obligations.MapDoesNotClamp : Prop :=
  ∀ (p : Params) (v lo hi dstLow dstHigh : Nat), p.wf = true → lo < hi → hi < 2 ^ p.wAdc → v < 2 ^ p.wAdc →
    dstLow ≤ dstHigh → dstHigh < 2 ^ p.wOcr →
    (lo ≤ v → v ≤ hi →
      (dstLow : Int) ≤ mapUnit p v lo hi dstLow dstHigh ∧ mapUnit p v lo hi dstLow dstHigh ≤ dstHigh) ∧
    (v < lo → mapUnit p v lo hi dstLow dstHigh ≤ dstLow ∧
      (hi - lo ≤ (lo - v) * (dstHigh - dstLow) → mapUnit p v lo hi dstLow dstHigh < dstLow)) ∧
    (hi < v → (dstHigh : Int) ≤ mapUnit p v lo hi dstLow dstHigh ∧
      (hi - lo ≤ (v - hi) * (dstHigh - dstLow) → (dstHigh : Int) < mapUnit p v lo hi dstLow dstHigh))

/-- R146: in an instance R4 admits no step of the mapper overflows: the formula carried out with words of `W_INT` bits
that wrap, each operand widened first (R100), gives the integer result exactly, and its magnitude stays below
`2^(W_ADC + W_OCR + 1)`. (Derived by the spec from R140, R141.) -/
def Obligations.MapperNeverOverflows : Prop :=
  ∀ (p : Params) (value srcLow srcHigh dstLow dstHigh : Nat), p.wf = true →
    operandsFit p (.mapFn value srcLow srcHigh dstLow dstHigh) = true →
    mapUnit p value srcLow srcHigh dstLow dstHigh =
      (if srcHigh = srcLow then BitVec.ofNat p.wInt dstLow
       else BitVec.ofNat p.wInt dstLow +
        ((BitVec.ofNat p.wInt value - BitVec.ofNat p.wInt srcLow) *
          (BitVec.ofNat p.wInt dstHigh - BitVec.ofNat p.wInt dstLow)).sdiv
          (BitVec.ofNat p.wInt srcHigh - BitVec.ofNat p.wInt srcLow)).toInt ∧
    mapUnit p value srcLow srcHigh dstLow dstHigh = mapInt value srcLow srcHigh dstLow dstHigh ∧
    (mapUnit p value srcLow srcHigh dstLow dstHigh).natAbs < 2 ^ (p.wAdc + p.wOcr + 1)

/-- R195: in an instance R4 admits the actuator stage is the identity inside the duty domain in both settings, and with
`ACT_CLAMP = 1` (the spec's decision D23) its value never leaves the domain. -/
def Obligations.ActuatorKeepsTheDutyDomain : Prop :=
  ∀ (p : Params) (v : Int), p.wf = true →
    ((min p.outLo p.outHi : Nat) ≤ v → v ≤ (max p.outLo p.outHi : Nat) → (act p v : Int) = v) ∧
    (p.actClamp = true → min p.outLo p.outHi ≤ act p v ∧ act p v ≤ max p.outLo p.outHi)

/-! ## Calibration -/

/-- R164, R166: run from `CALINIT`, a calibration window with any samples of the converter's width, in any order, leaves
their least and greatest as the range (and the initial inverted range if there is none), with `CALEND` next and every
other element but `IE` as it was. (Derived by the spec from R161, R162; the window without a sample is the spec's decision
D13. A schedule word holds a calibration sample in 15 bits, R105.) -/
def Obligations.CalibrationFindsTheExtremes : Prop :=
  ∀ (samples : List Nat) (s : State) (rest : List Stimulus), s.ph = 1 →
    (∀ v ∈ samples, v < 2 ^ s.par.wAdc ∧ v < 2 ^ 15) →
    s.script = encode .calinit :: calibrationScript samples ++ rest →
    ∃ t, Sys2Proof.core.run (samples.length + 2) s = .next t ∧
      (samples ≠ [] → t.calLo ∈ samples ∧ t.calHi ∈ samples ∧ ∀ v ∈ samples, t.calLo ≤ v ∧ v ≤ t.calHi) ∧
      (samples = [] → t.calLo = 2 ^ s.par.wAdc - 1 ∧ t.calHi = 0) ∧
      t = { s with calLo := t.calLo, calHi := t.calHi, ph := 3, ie := false, script := rest }

/-- R165, R76: nothing interrupts the calibration: in a good state between reset and `CALEND`, a step of the block other
than reset leaves `SWITCH`, `DIR`, `HIST` and `STAT` unchanged. -/
def Obligations.CalibrationIsUninterruptible : Prop :=
  ∀ s t : State, s.Inv → s.ph.toNat ≤ 3 → s.blockNext = true → s.resetNext = false → step s = .next t →
    t.switch = s.switch ∧ t.dir = s.dir ∧ t.hist = s.hist ∧ t.stat = s.stat

/-- R166, R192: once the loop runs it runs for ever and the range is never written again: from a good state in the loop,
a step other than reset stays in the loop, keeps events enabled and keeps `CAL_LO` and `CAL_HI`; so does a step of wires
driven alone, which is the model's own (log entries 10, 11). -/
def Obligations.RangeIsImmutableInTheLoop : Prop :=
  ∀ s t : State, s.Inv → 4 ≤ s.ph.toNat → s.resetNext = false → step s = .next t →
    4 ≤ t.ph.toNat ∧ t.ie = true ∧ t.calLo = s.calLo ∧ t.calHi = s.calHi

/-! ## The control loop -/

/-- R180: the successor table, for every phase from the state whose `PH` names it. -/
def Obligations.SuccessorTableHolds : Prop :=
  ∀ (i : Instr) (s t : State), phaseCode i = some s.ph → exec i s = .next t →
    (s.ph = 0 → t.ph = 1) ∧ (s.ph = 1 → t.ph = 2) ∧ (s.ph = 2 → t.ph = if i = .calsmp none then 3 else 2) ∧
    (s.ph = 3 → t.ph = 4) ∧ (s.ph = 4 → t.ph = 5) ∧ (s.ph = 5 → t.ph = 6) ∧ (s.ph = 6 → t.ph = 7) ∧
    (s.ph = 7 → t.ph = if s.switch = 0x00 then 11 else 8) ∧ (s.ph = 8 → t.ph = 9) ∧ (s.ph = 9 → t.ph = 10) ∧
    (s.ph = 10 → t.ph = 13) ∧ (s.ph = 11 → t.ph = 12) ∧ (s.ph = 12 → t.ph = 13) ∧ (s.ph = 13 → t.ph = 4)

/-- R193, R93, R196: the phases of one drive decision realise the multiplexer: they leave the outputs, the compare
register and the status trace that the row selected by (`SWITCH`, `DIR`) leaves, and `SLEEP` as the next phase. The rows
are compared as operations of their own, which is the model's reading of the truth table (log entry 11). -/
def Obligations.PhasesRealiseTheMultiplexer : Prop :=
  ∀ s : State, ∃ (t m : State) (i : Instr),
    drivePass s = .next t ∧ decode (.mux (selectorWord (enabled s.switch) s.dir)) = .ok (.run i) ∧
    exec i s = .next m ∧ t.dout = m.dout ∧ t.ocr = m.ocr ∧ t.stat = m.stat ∧ t.ph = 13

/-- R194: the drive decision taken twice in a row with unchanged inputs gives the same outputs and the same compare
write, and what the second writes does not depend on what the first left. (Derived by the spec from R185 to R191.) -/
def Obligations.DriveDecisionIsIdempotent : Prop :=
  ∀ s : State, ∃ t u : State, drivePass s = .next t ∧ drivePass t = .next u ∧
    u.dout = t.dout ∧ u.ocr = t.ocr ∧ u.swL = t.swL ∧ u.dirL = t.dirL ∧
    ∃ emitted, t.stat = s.stat ++ emitted ∧ u.stat = t.stat ++ emitted

/-- R194, R193: two drive decisions from states that agree on `SWITCH`, `DIR` and `CALV`, whatever else they hold, write
the same legal outputs and the same compare value, or none: no memory of the previous motor state. -/
def Obligations.DriveDecisionHasNoMemory : Prop :=
  ∀ s s' : State, s.par = s'.par → s.switch = s'.switch → s.dir = s'.dir → s.calv = s'.calv → flagLegal s.dir →
    ∃ t t' : State, drivePass s = .next t ∧ drivePass s' = .next t' ∧ t.dout = t'.dout ∧
      ((s.switch ≠ 0x00 ∧ t.ocr = act s.par s.calv ∧ t'.ocr = act s.par s.calv) ∨
        (s.switch = 0x00 ∧ t.ocr = s.ocr ∧ t'.ocr = s'.ocr)) ∧
      ∃ emitted, t.stat = s.stat ++ emitted ∧ t'.stat = s'.stat ++ emitted

/-- R258: an event between the two flag reads gives the iteration the `SWITCH` from before it and the `DIR` from after
it. -/
def Obligations.FlagReadsAreNotOneSnapshot : Prop :=
  ∀ (s : State) (cur : Byte), s.ie = true →
    ∃ e t : State, exec (.edge cur) s = .next e ∧ runAll [.rdsw, .edge cur, .rddir] s = .next t ∧
      t.swL = s.switch ∧ t.dirL = e.dir ∧ t.switch = e.switch

/-! ## Whole-machine rules -/

/-- R4, R31, R33, R93, R102, R164, R185: the state after reset is good, for every instance R4 admits, and for the instance
`State.reset` is (whose OPEN parameters are free, log entry 2). Its `DIR`, `DOUT` and `IE` are the spec's decisions D6,
D25, D14 (log entry 5), and the contents of the registers R39 calls "unwritten" are the model's (log entry 4), of which
only that they fit their widths is said. -/
def Obligations.ResetStateIsGood : Prop :=
  (∀ p : Params, p.wf = true → (State.resetWith p).Inv) ∧ State.reset.Inv

/-- R4, R23 to R25, R29, R31, R33, R93, R102, R164, R165, R185: every step, of the block or of wires driven alone (log entry
10), keeps the invariant: the registers hold values of their widths, the flags stay 0 or 1, `PH` names a phase, events are
masked exactly up to `CALEND`, `DOUT` is never `0b11`, the range is ordered or the initial one, and the path is the one
`SW_L` chose. That `DOUT` is never `0b11` between two writes of the outputs either rests on the spec's decision D21 (log
entry 18), and the reset step on D6, D25, D14 (log entry 5). -/
def Obligations.EveryStepKeepsTheInvariant : Prop :=
  ∀ s t : State, s.Inv → step s = .next t → t.Inv

/-- R31, R191, R220: the anomalous branch is unreachable: from a good state, what a step of the block appends to `STAT`
holds no `ST_DIRERR`; reset empties `STAT`. -/
def Obligations.DirectionErrorIsNeverReported : Prop :=
  ∀ s t : State, s.Inv → s.blockNext = true → step s = .next t →
    (∃ new, t.stat = s.stat ++ new ∧ ∀ r ∈ new, r.kind ≠ .stDirerr) ∨ (s.resetNext = true ∧ t.stat = [])

/-- R192, R222: with nothing scripted the block runs for ever: from a good state every number of steps ends in a good
state, whatever the environment's free choices. That no step waits for the text sink is the spec's decision D19: `Emit`
never blocks (log entry 17, unsafe). -/
def Obligations.TheLoopNeverHalts : Prop :=
  ∀ (n : Nat) (s : State), s.Inv → s.script = [] →
    ∃ t, Sys2Proof.core.run n s = .next t ∧ t.Inv ∧ t.script = [] ∧ t.par = s.par ∧ t.tick = s.tick + n

/-- R40: one step of the block does not tell apart two states that differ only in registers not yet written, and keeps
them so; the compare register, if it agreed, still agrees. -/
def Obligations.UnwrittenRegistersAreNotRead : Prop :=
  ∀ s s' t : State, AgreeOnWritten s s' → s.blockNext = true → step s = .next t →
    ∃ t', step s' = .next t' ∧ AgreeOnWritten t t' ∧ (s.ocr = s'.ocr → t.ocr = t'.ocr)

/-- R40, R39: whatever the registers R39 calls "unwritten" hold after power-up, every run of the block from there has
the same outputs, flags, phases and histories: no run reads one of them before it is written, so the values log
entry 4 names for them are never seen. (The spec derives R40 from R180; `OCR` itself is visible to the environment
and is left out.) -/
def Obligations.PowerUpContentsNeverShow : Prop :=
  ∀ (p : Params) (script : List Stimulus) (tick n : Nat) (lo hi smp : Nat) (cv : Int) (sl dl : Byte) (oc : Nat)
    (t : State), (∀ st ∈ script, stimulusOfBlock st = true) →
    Sys2Proof.core.run n { State.resetWith p with script := script, tick := tick } = .next t →
    ∃ t', Sys2Proof.core.run n
        { State.resetWith p with
          script := script, tick := tick, calLo := lo, calHi := hi, sample := smp, calv := cv, swL := sl, dirL := dl,
          ocr := oc } = .next t' ∧
      t'.switch = t.switch ∧ t'.dir = t.dir ∧ t'.hist = t.hist ∧ t'.dout = t.dout ∧ t'.ph = t.ph ∧ t'.ie = t.ie ∧
      t'.stat = t.stat ∧ t'.req = t.req
end

