-- ==== Sys2Proof/Laws/Decode.lean ====
section
/-! SUPPORT. The fields of words built from fields, words rebuilt from their fields, and what the pieces of the decoder
answer. -/

namespace Sys2Proof

/-! ## Fields of a schedule word -/

/-- The number a schedule word is (R105, R6). -/
theorem schedWord_toNat (k : BitVec 4) (p : PhaseCode) (a : BitVec 16) :
    (schedWord k p a).toNat = k.toNat * 2 ^ 20 + p.toNat * 2 ^ 16 + a.toNat := by
  have hp := p.isLt
  have ha := a.isLt
  rw [schedWord, BitVec.toNat_append, BitVec.toNat_append, ← Nat.shiftLeft_add_eq_or_of_lt hp,
    ← Nat.shiftLeft_add_eq_or_of_lt ha, Nat.shiftLeft_eq, Nat.shiftLeft_eq]
  omega

theorem schedKind_toNat (w : SchedWord) : (schedKind w).toNat = w.toNat / 2 ^ 20 := by
  have := w.isLt
  rw [schedKind, BitVec.extractLsb'_toNat, Nat.shiftRight_eq_div_pow]
  omega

theorem schedPhase_toNat (w : SchedWord) : (schedPhase w).toNat = w.toNat / 2 ^ 16 % 16 := by
  rw [schedPhase, BitVec.extractLsb'_toNat, Nat.shiftRight_eq_div_pow]

theorem schedArg_toNat (w : SchedWord) : (schedArg w).toNat = w.toNat % 65536 := by
  rw [schedArg, BitVec.extractLsb'_toNat, Nat.shiftRight_eq_div_pow]
  omega

@[simp] theorem schedKind_schedWord (k : BitVec 4) (p : PhaseCode) (a : BitVec 16) :
    schedKind (schedWord k p a) = k := by
  have := k.isLt; have := p.isLt; have := a.isLt
  apply BitVec.eq_of_toNat_eq
  rw [schedKind_toNat, schedWord_toNat]
  omega

@[simp] theorem schedPhase_schedWord (k : BitVec 4) (p : PhaseCode) (a : BitVec 16) :
    schedPhase (schedWord k p a) = p := by
  have := k.isLt; have := p.isLt; have := a.isLt
  apply BitVec.eq_of_toNat_eq
  rw [schedPhase_toNat, schedWord_toNat]
  omega

@[simp] theorem schedArg_schedWord (k : BitVec 4) (p : PhaseCode) (a : BitVec 16) :
    schedArg (schedWord k p a) = a := by
  have := k.isLt; have := p.isLt; have := a.isLt
  apply BitVec.eq_of_toNat_eq
  rw [schedArg_toNat, schedWord_toNat]
  omega

/-- A schedule word is its three fields (R105). -/
theorem schedWord_fields (w : SchedWord) : schedWord (schedKind w) (schedPhase w) (schedArg w) = w := by
  have := w.isLt
  apply BitVec.eq_of_toNat_eq
  rw [schedWord_toNat, schedKind_toNat, schedPhase_toNat, schedArg_toNat]
  omega

/-! ## Fields of a selector -/

/-- The number a selector is (R93). -/
theorem selectorWord_toNat (en : Bool) (d : Byte) : (selectorWord en d).toNat = en.toNat * 256 + d.toNat := by
  have hd : d.toNat < 2 ^ 8 := d.isLt
  rw [selectorWord, BitVec.toNat_append, ← Nat.shiftLeft_add_eq_or_of_lt hd, Nat.shiftLeft_eq, BitVec.toNat_ofBool]

theorem selEnable_eq (w : Selector) : selEnable w = decide (256 ≤ w.toNat) := by
  have := w.isLt
  rw [selEnable, BitVec.getLsbD, Nat.testBit_eq_decide_div_mod_eq]
  simp only [decide_eq_decide]
  omega

theorem selDir_toNat (w : Selector) : (selDir w).toNat = w.toNat % 256 := by
  rw [selDir, BitVec.extractLsb'_toNat, Nat.shiftRight_eq_div_pow]
  simp only [Config.wIn]
  omega

@[simp] theorem selEnable_selectorWord (en : Bool) (d : Byte) : selEnable (selectorWord en d) = en := by
  have hd : d.toNat < 256 := d.isLt
  rw [selEnable_eq, selectorWord_toNat]
  cases en <;> simp
  omega

@[simp] theorem selDir_selectorWord (en : Bool) (d : Byte) : selDir (selectorWord en d) = d := by
  have hd : d.toNat < 256 := d.isLt
  apply BitVec.eq_of_toNat_eq
  rw [selDir_toNat, selectorWord_toNat]
  omega

/-- A selector is its two fields (R93). -/
theorem selectorWord_fields (w : Selector) : selectorWord (selEnable w) (selDir w) = w := by
  have := w.isLt
  apply BitVec.eq_of_toNat_eq
  rw [selectorWord_toNat, selEnable_eq, selDir_toNat]
  by_cases h : 256 ≤ w.toNat <;> simp [h] <;> omega

/-- The row of an enabled selector (R93). -/
theorem decodeSelector_enabled (d : Byte) :
    decodeSelector (selectorWord true d) = if d = 0x00 then .drvFwd else if d = 0x01 then .drvRev else .drvErr d := by
  simp [decodeSelector]

/-- The row of a selector that is not enabled, whatever its `DIR_L` (R93). -/
theorem decodeSelector_disabled (d : Byte) : decodeSelector (selectorWord false d) = .drvOff d := by
  simp [decodeSelector]

/-! ## Phases -/

/-- The phase a code names has that code (R95). -/
theorem phaseCode_of_phaseInstr {c : PhaseCode} {d : Option Nat} {v : Nat} {i : Instr}
    (h : phaseInstr c d v = .ok i) : phaseCode i = some c := by
  obtain ⟨⟨n, hn⟩⟩ := c
  interval_cases n <;> (cases h <;> rfl)

/-- A code names a phase exactly when it is below 14 (R95, R102). -/
theorem phaseInstr_ok_or_reserved (c : PhaseCode) (d : Option Nat) (v : Nat) :
    (c.toNat < 14 ∧ ∃ i, phaseInstr c d v = .ok i) ∨ (14 ≤ c.toNat ∧ phaseInstr c d v = .error .reservedPhase) := by
  unfold phaseInstr
  split <;> simp_all
  have := c.isLt
  omega

/-- An argument field holds a draw of 16 bits (R105). -/
theorem argument_toNat {v : Nat} (h : v < 2 ^ 16) : (BitVec.ofNat 16 v).toNat = v := by
  rw [BitVec.toNat_ofNat, Nat.mod_eq_of_lt h]

/-- A word of a calibration sample reads as that sample, and never as "expired" (R105). -/
theorem decodePhaseStep_calsmp {v : Nat} (h : v < 2 ^ 15) :
    decodePhaseStep 2 (BitVec.ofNat 16 v) = .ok (.calsmp (some v)) := by
  have hv := argument_toNat (v := v) (by omega)
  have hne : BitVec.ofNat 16 v ≠ expiredArg := by
    intro he
    have := congrArg BitVec.toNat he
    rw [hv] at this
    have he : expiredArg.toNat = 2 ^ 15 := by decide
    omega
  show (if _ then _ else if _ then _ else _) = _
  rw [if_neg hne, hv, if_pos h]

/-- A word of a sample reads as that sample (R105). -/
theorem decodePhaseStep_sample {v : Nat} (h : v < 2 ^ 16) :
    decodePhaseStep 4 (BitVec.ofNat 16 v) = .ok (.sample v) := by
  show Except.ok (Instr.sample _) = _
  rw [argument_toNat h]

end Sys2Proof
end

