-- ==== Sys2Proof/Laws/State.lean ====
section
/-! SUPPORT. One lemma for each field of State under each register write and append of Machine/Ops.lean, so that no
proof unfolds a record update. -/

namespace Sys2Proof.Machine

section goTo

variable (s : State) (p : PhaseCode)

@[simp] theorem State.goTo_switch : (s.goTo p).switch = s.switch := rfl
@[simp] theorem State.goTo_dir : (s.goTo p).dir = s.dir := rfl
@[simp] theorem State.goTo_hist : (s.goTo p).hist = s.hist := rfl
@[simp] theorem State.goTo_calLo : (s.goTo p).calLo = s.calLo := rfl
@[simp] theorem State.goTo_calHi : (s.goTo p).calHi = s.calHi := rfl
@[simp] theorem State.goTo_sample : (s.goTo p).sample = s.sample := rfl
@[simp] theorem State.goTo_calv : (s.goTo p).calv = s.calv := rfl
@[simp] theorem State.goTo_swL : (s.goTo p).swL = s.swL := rfl
@[simp] theorem State.goTo_dirL : (s.goTo p).dirL = s.dirL := rfl
@[simp] theorem State.goTo_dout : (s.goTo p).dout = s.dout := rfl
@[simp] theorem State.goTo_ocr : (s.goTo p).ocr = s.ocr := rfl
@[simp] theorem State.goTo_ph : (s.goTo p).ph = p := rfl
@[simp] theorem State.goTo_ie : (s.goTo p).ie = s.ie := rfl
@[simp] theorem State.goTo_stat : (s.goTo p).stat = s.stat := rfl
@[simp] theorem State.goTo_req : (s.goTo p).req = s.req := rfl
@[simp] theorem State.goTo_par : (s.goTo p).par = s.par := rfl
@[simp] theorem State.goTo_script : (s.goTo p).script = s.script := rfl
@[simp] theorem State.goTo_tick : (s.goTo p).tick = s.tick := rfl
@[simp] theorem State.goTo_mapOut : (s.goTo p).mapOut = s.mapOut := rfl

end goTo

section setIe

variable (s : State) (b : Bool)

@[simp] theorem State.setIe_switch : (s.setIe b).switch = s.switch := rfl
@[simp] theorem State.setIe_dir : (s.setIe b).dir = s.dir := rfl
@[simp] theorem State.setIe_hist : (s.setIe b).hist = s.hist := rfl
@[simp] theorem State.setIe_calLo : (s.setIe b).calLo = s.calLo := rfl
@[simp] theorem State.setIe_calHi : (s.setIe b).calHi = s.calHi := rfl
@[simp] theorem State.setIe_sample : (s.setIe b).sample = s.sample := rfl
@[simp] theorem State.setIe_calv : (s.setIe b).calv = s.calv := rfl
@[simp] theorem State.setIe_swL : (s.setIe b).swL = s.swL := rfl
@[simp] theorem State.setIe_dirL : (s.setIe b).dirL = s.dirL := rfl
@[simp] theorem State.setIe_dout : (s.setIe b).dout = s.dout := rfl
@[simp] theorem State.setIe_ocr : (s.setIe b).ocr = s.ocr := rfl
@[simp] theorem State.setIe_ph : (s.setIe b).ph = s.ph := rfl
@[simp] theorem State.setIe_ie : (s.setIe b).ie = b := rfl
@[simp] theorem State.setIe_stat : (s.setIe b).stat = s.stat := rfl
@[simp] theorem State.setIe_req : (s.setIe b).req = s.req := rfl
@[simp] theorem State.setIe_par : (s.setIe b).par = s.par := rfl
@[simp] theorem State.setIe_script : (s.setIe b).script = s.script := rfl
@[simp] theorem State.setIe_tick : (s.setIe b).tick = s.tick := rfl
@[simp] theorem State.setIe_mapOut : (s.setIe b).mapOut = s.mapOut := rfl

end setIe

section setRange

variable (s : State) (lo hi : Nat)

@[simp] theorem State.setRange_switch : (s.setRange lo hi).switch = s.switch := rfl
@[simp] theorem State.setRange_dir : (s.setRange lo hi).dir = s.dir := rfl
@[simp] theorem State.setRange_hist : (s.setRange lo hi).hist = s.hist := rfl
@[simp] theorem State.setRange_calLo : (s.setRange lo hi).calLo = lo := rfl
@[simp] theorem State.setRange_calHi : (s.setRange lo hi).calHi = hi := rfl
@[simp] theorem State.setRange_sample : (s.setRange lo hi).sample = s.sample := rfl
@[simp] theorem State.setRange_calv : (s.setRange lo hi).calv = s.calv := rfl
@[simp] theorem State.setRange_swL : (s.setRange lo hi).swL = s.swL := rfl
@[simp] theorem State.setRange_dirL : (s.setRange lo hi).dirL = s.dirL := rfl
@[simp] theorem State.setRange_dout : (s.setRange lo hi).dout = s.dout := rfl
@[simp] theorem State.setRange_ocr : (s.setRange lo hi).ocr = s.ocr := rfl
@[simp] theorem State.setRange_ph : (s.setRange lo hi).ph = s.ph := rfl
@[simp] theorem State.setRange_ie : (s.setRange lo hi).ie = s.ie := rfl
@[simp] theorem State.setRange_stat : (s.setRange lo hi).stat = s.stat := rfl
@[simp] theorem State.setRange_req : (s.setRange lo hi).req = s.req := rfl
@[simp] theorem State.setRange_par : (s.setRange lo hi).par = s.par := rfl
@[simp] theorem State.setRange_script : (s.setRange lo hi).script = s.script := rfl
@[simp] theorem State.setRange_tick : (s.setRange lo hi).tick = s.tick := rfl
@[simp] theorem State.setRange_mapOut : (s.setRange lo hi).mapOut = s.mapOut := rfl

end setRange

section setSample

variable (s : State) (v : Nat)

@[simp] theorem State.setSample_switch : (s.setSample v).switch = s.switch := rfl
@[simp] theorem State.setSample_dir : (s.setSample v).dir = s.dir := rfl
@[simp] theorem State.setSample_hist : (s.setSample v).hist = s.hist := rfl
@[simp] theorem State.setSample_calLo : (s.setSample v).calLo = s.calLo := rfl
@[simp] theorem State.setSample_calHi : (s.setSample v).calHi = s.calHi := rfl
@[simp] theorem State.setSample_sample : (s.setSample v).sample = v := rfl
@[simp] theorem State.setSample_calv : (s.setSample v).calv = s.calv := rfl
@[simp] theorem State.setSample_swL : (s.setSample v).swL = s.swL := rfl
@[simp] theorem State.setSample_dirL : (s.setSample v).dirL = s.dirL := rfl
@[simp] theorem State.setSample_dout : (s.setSample v).dout = s.dout := rfl
@[simp] theorem State.setSample_ocr : (s.setSample v).ocr = s.ocr := rfl
@[simp] theorem State.setSample_ph : (s.setSample v).ph = s.ph := rfl
@[simp] theorem State.setSample_ie : (s.setSample v).ie = s.ie := rfl
@[simp] theorem State.setSample_stat : (s.setSample v).stat = s.stat := rfl
@[simp] theorem State.setSample_req : (s.setSample v).req = s.req := rfl
@[simp] theorem State.setSample_par : (s.setSample v).par = s.par := rfl
@[simp] theorem State.setSample_script : (s.setSample v).script = s.script := rfl
@[simp] theorem State.setSample_tick : (s.setSample v).tick = s.tick := rfl
@[simp] theorem State.setSample_mapOut : (s.setSample v).mapOut = s.mapOut := rfl

end setSample

section setCalv

variable (s : State) (v : Int)

@[simp] theorem State.setCalv_switch : (s.setCalv v).switch = s.switch := rfl
@[simp] theorem State.setCalv_dir : (s.setCalv v).dir = s.dir := rfl
@[simp] theorem State.setCalv_hist : (s.setCalv v).hist = s.hist := rfl
@[simp] theorem State.setCalv_calLo : (s.setCalv v).calLo = s.calLo := rfl
@[simp] theorem State.setCalv_calHi : (s.setCalv v).calHi = s.calHi := rfl
@[simp] theorem State.setCalv_sample : (s.setCalv v).sample = s.sample := rfl
@[simp] theorem State.setCalv_calv : (s.setCalv v).calv = v := rfl
@[simp] theorem State.setCalv_swL : (s.setCalv v).swL = s.swL := rfl
@[simp] theorem State.setCalv_dirL : (s.setCalv v).dirL = s.dirL := rfl
@[simp] theorem State.setCalv_dout : (s.setCalv v).dout = s.dout := rfl
@[simp] theorem State.setCalv_ocr : (s.setCalv v).ocr = s.ocr := rfl
@[simp] theorem State.setCalv_ph : (s.setCalv v).ph = s.ph := rfl
@[simp] theorem State.setCalv_ie : (s.setCalv v).ie = s.ie := rfl
@[simp] theorem State.setCalv_stat : (s.setCalv v).stat = s.stat := rfl
@[simp] theorem State.setCalv_req : (s.setCalv v).req = s.req := rfl
@[simp] theorem State.setCalv_par : (s.setCalv v).par = s.par := rfl
@[simp] theorem State.setCalv_script : (s.setCalv v).script = s.script := rfl
@[simp] theorem State.setCalv_tick : (s.setCalv v).tick = s.tick := rfl
@[simp] theorem State.setCalv_mapOut : (s.setCalv v).mapOut = s.mapOut := rfl

end setCalv

section setSwL

variable (s : State) (v : Byte)

@[simp] theorem State.setSwL_switch : (s.setSwL v).switch = s.switch := rfl
@[simp] theorem State.setSwL_dir : (s.setSwL v).dir = s.dir := rfl
@[simp] theorem State.setSwL_hist : (s.setSwL v).hist = s.hist := rfl
@[simp] theorem State.setSwL_calLo : (s.setSwL v).calLo = s.calLo := rfl
@[simp] theorem State.setSwL_calHi : (s.setSwL v).calHi = s.calHi := rfl
@[simp] theorem State.setSwL_sample : (s.setSwL v).sample = s.sample := rfl
@[simp] theorem State.setSwL_calv : (s.setSwL v).calv = s.calv := rfl
@[simp] theorem State.setSwL_swL : (s.setSwL v).swL = v := rfl
@[simp] theorem State.setSwL_dirL : (s.setSwL v).dirL = s.dirL := rfl
@[simp] theorem State.setSwL_dout : (s.setSwL v).dout = s.dout := rfl
@[simp] theorem State.setSwL_ocr : (s.setSwL v).ocr = s.ocr := rfl
@[simp] theorem State.setSwL_ph : (s.setSwL v).ph = s.ph := rfl
@[simp] theorem State.setSwL_ie : (s.setSwL v).ie = s.ie := rfl
@[simp] theorem State.setSwL_stat : (s.setSwL v).stat = s.stat := rfl
@[simp] theorem State.setSwL_req : (s.setSwL v).req = s.req := rfl
@[simp] theorem State.setSwL_par : (s.setSwL v).par = s.par := rfl
@[simp] theorem State.setSwL_script : (s.setSwL v).script = s.script := rfl
@[simp] theorem State.setSwL_tick : (s.setSwL v).tick = s.tick := rfl
@[simp] theorem State.setSwL_mapOut : (s.setSwL v).mapOut = s.mapOut := rfl

end setSwL

section setDirL

variable (s : State) (v : Byte)

@[simp] theorem State.setDirL_switch : (s.setDirL v).switch = s.switch := rfl
@[simp] theorem State.setDirL_dir : (s.setDirL v).dir = s.dir := rfl
@[simp] theorem State.setDirL_hist : (s.setDirL v).hist = s.hist := rfl
@[simp] theorem State.setDirL_calLo : (s.setDirL v).calLo = s.calLo := rfl
@[simp] theorem State.setDirL_calHi : (s.setDirL v).calHi = s.calHi := rfl
@[simp] theorem State.setDirL_sample : (s.setDirL v).sample = s.sample := rfl
@[simp] theorem State.setDirL_calv : (s.setDirL v).calv = s.calv := rfl
@[simp] theorem State.setDirL_swL : (s.setDirL v).swL = s.swL := rfl
@[simp] theorem State.setDirL_dirL : (s.setDirL v).dirL = v := rfl
@[simp] theorem State.setDirL_dout : (s.setDirL v).dout = s.dout := rfl
@[simp] theorem State.setDirL_ocr : (s.setDirL v).ocr = s.ocr := rfl
@[simp] theorem State.setDirL_ph : (s.setDirL v).ph = s.ph := rfl
@[simp] theorem State.setDirL_ie : (s.setDirL v).ie = s.ie := rfl
@[simp] theorem State.setDirL_stat : (s.setDirL v).stat = s.stat := rfl
@[simp] theorem State.setDirL_req : (s.setDirL v).req = s.req := rfl
@[simp] theorem State.setDirL_par : (s.setDirL v).par = s.par := rfl
@[simp] theorem State.setDirL_script : (s.setDirL v).script = s.script := rfl
@[simp] theorem State.setDirL_tick : (s.setDirL v).tick = s.tick := rfl
@[simp] theorem State.setDirL_mapOut : (s.setDirL v).mapOut = s.mapOut := rfl

end setDirL

section setDout

variable (s : State) (v : BitVec 2)

@[simp] theorem State.setDout_switch : (s.setDout v).switch = s.switch := rfl
@[simp] theorem State.setDout_dir : (s.setDout v).dir = s.dir := rfl
@[simp] theorem State.setDout_hist : (s.setDout v).hist = s.hist := rfl
@[simp] theorem State.setDout_calLo : (s.setDout v).calLo = s.calLo := rfl
@[simp] theorem State.setDout_calHi : (s.setDout v).calHi = s.calHi := rfl
@[simp] theorem State.setDout_sample : (s.setDout v).sample = s.sample := rfl
@[simp] theorem State.setDout_calv : (s.setDout v).calv = s.calv := rfl
@[simp] theorem State.setDout_swL : (s.setDout v).swL = s.swL := rfl
@[simp] theorem State.setDout_dirL : (s.setDout v).dirL = s.dirL := rfl
@[simp] theorem State.setDout_dout : (s.setDout v).dout = v := rfl
@[simp] theorem State.setDout_ocr : (s.setDout v).ocr = s.ocr := rfl
@[simp] theorem State.setDout_ph : (s.setDout v).ph = s.ph := rfl
@[simp] theorem State.setDout_ie : (s.setDout v).ie = s.ie := rfl
@[simp] theorem State.setDout_stat : (s.setDout v).stat = s.stat := rfl
@[simp] theorem State.setDout_req : (s.setDout v).req = s.req := rfl
@[simp] theorem State.setDout_par : (s.setDout v).par = s.par := rfl
@[simp] theorem State.setDout_script : (s.setDout v).script = s.script := rfl
@[simp] theorem State.setDout_tick : (s.setDout v).tick = s.tick := rfl
@[simp] theorem State.setDout_mapOut : (s.setDout v).mapOut = s.mapOut := rfl

end setDout

section setOcr

variable (s : State) (v : Nat)

@[simp] theorem State.setOcr_switch : (s.setOcr v).switch = s.switch := rfl
@[simp] theorem State.setOcr_dir : (s.setOcr v).dir = s.dir := rfl
@[simp] theorem State.setOcr_hist : (s.setOcr v).hist = s.hist := rfl
@[simp] theorem State.setOcr_calLo : (s.setOcr v).calLo = s.calLo := rfl
@[simp] theorem State.setOcr_calHi : (s.setOcr v).calHi = s.calHi := rfl
@[simp] theorem State.setOcr_sample : (s.setOcr v).sample = s.sample := rfl
@[simp] theorem State.setOcr_calv : (s.setOcr v).calv = s.calv := rfl
@[simp] theorem State.setOcr_swL : (s.setOcr v).swL = s.swL := rfl
@[simp] theorem State.setOcr_dirL : (s.setOcr v).dirL = s.dirL := rfl
@[simp] theorem State.setOcr_dout : (s.setOcr v).dout = s.dout := rfl
@[simp] theorem State.setOcr_ocr : (s.setOcr v).ocr = v := rfl
@[simp] theorem State.setOcr_ph : (s.setOcr v).ph = s.ph := rfl
@[simp] theorem State.setOcr_ie : (s.setOcr v).ie = s.ie := rfl
@[simp] theorem State.setOcr_stat : (s.setOcr v).stat = s.stat := rfl
@[simp] theorem State.setOcr_req : (s.setOcr v).req = s.req := rfl
@[simp] theorem State.setOcr_par : (s.setOcr v).par = s.par := rfl
@[simp] theorem State.setOcr_script : (s.setOcr v).script = s.script := rfl
@[simp] theorem State.setOcr_tick : (s.setOcr v).tick = s.tick := rfl
@[simp] theorem State.setOcr_mapOut : (s.setOcr v).mapOut = s.mapOut := rfl

end setOcr

section setDetector

variable (s : State) (h w d : Byte)

@[simp] theorem State.setDetector_switch : (s.setDetector h w d).switch = w := rfl
@[simp] theorem State.setDetector_dir : (s.setDetector h w d).dir = d := rfl
@[simp] theorem State.setDetector_hist : (s.setDetector h w d).hist = h := rfl
@[simp] theorem State.setDetector_calLo : (s.setDetector h w d).calLo = s.calLo := rfl
@[simp] theorem State.setDetector_calHi : (s.setDetector h w d).calHi = s.calHi := rfl
@[simp] theorem State.setDetector_sample : (s.setDetector h w d).sample = s.sample := rfl
@[simp] theorem State.setDetector_calv : (s.setDetector h w d).calv = s.calv := rfl
@[simp] theorem State.setDetector_swL : (s.setDetector h w d).swL = s.swL := rfl
@[simp] theorem State.setDetector_dirL : (s.setDetector h w d).dirL = s.dirL := rfl
@[simp] theorem State.setDetector_dout : (s.setDetector h w d).dout = s.dout := rfl
@[simp] theorem State.setDetector_ocr : (s.setDetector h w d).ocr = s.ocr := rfl
@[simp] theorem State.setDetector_ph : (s.setDetector h w d).ph = s.ph := rfl
@[simp] theorem State.setDetector_ie : (s.setDetector h w d).ie = s.ie := rfl
@[simp] theorem State.setDetector_stat : (s.setDetector h w d).stat = s.stat := rfl
@[simp] theorem State.setDetector_req : (s.setDetector h w d).req = s.req := rfl
@[simp] theorem State.setDetector_par : (s.setDetector h w d).par = s.par := rfl
@[simp] theorem State.setDetector_script : (s.setDetector h w d).script = s.script := rfl
@[simp] theorem State.setDetector_tick : (s.setDetector h w d).tick = s.tick := rfl
@[simp] theorem State.setDetector_mapOut : (s.setDetector h w d).mapOut = s.mapOut := rfl

end setDetector

section setMapOut

variable (s : State) (v : Int)

@[simp] theorem State.setMapOut_switch : (s.setMapOut v).switch = s.switch := rfl
@[simp] theorem State.setMapOut_dir : (s.setMapOut v).dir = s.dir := rfl
@[simp] theorem State.setMapOut_hist : (s.setMapOut v).hist = s.hist := rfl
@[simp] theorem State.setMapOut_calLo : (s.setMapOut v).calLo = s.calLo := rfl
@[simp] theorem State.setMapOut_calHi : (s.setMapOut v).calHi = s.calHi := rfl
@[simp] theorem State.setMapOut_sample : (s.setMapOut v).sample = s.sample := rfl
@[simp] theorem State.setMapOut_calv : (s.setMapOut v).calv = s.calv := rfl
@[simp] theorem State.setMapOut_swL : (s.setMapOut v).swL = s.swL := rfl
@[simp] theorem State.setMapOut_dirL : (s.setMapOut v).dirL = s.dirL := rfl
@[simp] theorem State.setMapOut_dout : (s.setMapOut v).dout = s.dout := rfl
@[simp] theorem State.setMapOut_ocr : (s.setMapOut v).ocr = s.ocr := rfl
@[simp] theorem State.setMapOut_ph : (s.setMapOut v).ph = s.ph := rfl
@[simp] theorem State.setMapOut_ie : (s.setMapOut v).ie = s.ie := rfl
@[simp] theorem State.setMapOut_stat : (s.setMapOut v).stat = s.stat := rfl
@[simp] theorem State.setMapOut_req : (s.setMapOut v).req = s.req := rfl
@[simp] theorem State.setMapOut_par : (s.setMapOut v).par = s.par := rfl
@[simp] theorem State.setMapOut_script : (s.setMapOut v).script = s.script := rfl
@[simp] theorem State.setMapOut_tick : (s.setMapOut v).tick = s.tick := rfl
@[simp] theorem State.setMapOut_mapOut : (s.setMapOut v).mapOut = v := rfl

end setMapOut

section emit

variable (s : State) (r : StatusRecord)

@[simp] theorem State.emit_switch : (s.emit r).switch = s.switch := rfl
@[simp] theorem State.emit_dir : (s.emit r).dir = s.dir := rfl
@[simp] theorem State.emit_hist : (s.emit r).hist = s.hist := rfl
@[simp] theorem State.emit_calLo : (s.emit r).calLo = s.calLo := rfl
@[simp] theorem State.emit_calHi : (s.emit r).calHi = s.calHi := rfl
@[simp] theorem State.emit_sample : (s.emit r).sample = s.sample := rfl
@[simp] theorem State.emit_calv : (s.emit r).calv = s.calv := rfl
@[simp] theorem State.emit_swL : (s.emit r).swL = s.swL := rfl
@[simp] theorem State.emit_dirL : (s.emit r).dirL = s.dirL := rfl
@[simp] theorem State.emit_dout : (s.emit r).dout = s.dout := rfl
@[simp] theorem State.emit_ocr : (s.emit r).ocr = s.ocr := rfl
@[simp] theorem State.emit_ph : (s.emit r).ph = s.ph := rfl
@[simp] theorem State.emit_ie : (s.emit r).ie = s.ie := rfl
@[simp] theorem State.emit_stat : (s.emit r).stat = s.stat ++ [r] := rfl
@[simp] theorem State.emit_req : (s.emit r).req = s.req := rfl
@[simp] theorem State.emit_par : (s.emit r).par = s.par := rfl
@[simp] theorem State.emit_script : (s.emit r).script = s.script := rfl
@[simp] theorem State.emit_tick : (s.emit r).tick = s.tick := rfl
@[simp] theorem State.emit_mapOut : (s.emit r).mapOut = s.mapOut := rfl

end emit

section issue

variable (s : State) (q : Request)

@[simp] theorem State.issue_switch : (s.issue q).switch = s.switch := rfl
@[simp] theorem State.issue_dir : (s.issue q).dir = s.dir := rfl
@[simp] theorem State.issue_hist : (s.issue q).hist = s.hist := rfl
@[simp] theorem State.issue_calLo : (s.issue q).calLo = s.calLo := rfl
@[simp] theorem State.issue_calHi : (s.issue q).calHi = s.calHi := rfl
@[simp] theorem State.issue_sample : (s.issue q).sample = s.sample := rfl
@[simp] theorem State.issue_calv : (s.issue q).calv = s.calv := rfl
@[simp] theorem State.issue_swL : (s.issue q).swL = s.swL := rfl
@[simp] theorem State.issue_dirL : (s.issue q).dirL = s.dirL := rfl
@[simp] theorem State.issue_dout : (s.issue q).dout = s.dout := rfl
@[simp] theorem State.issue_ocr : (s.issue q).ocr = s.ocr := rfl
@[simp] theorem State.issue_ph : (s.issue q).ph = s.ph := rfl
@[simp] theorem State.issue_ie : (s.issue q).ie = s.ie := rfl
@[simp] theorem State.issue_stat : (s.issue q).stat = s.stat := rfl
@[simp] theorem State.issue_req : (s.issue q).req = s.req ++ [q] := rfl
@[simp] theorem State.issue_par : (s.issue q).par = s.par := rfl
@[simp] theorem State.issue_script : (s.issue q).script = s.script := rfl
@[simp] theorem State.issue_tick : (s.issue q).tick = s.tick := rfl
@[simp] theorem State.issue_mapOut : (s.issue q).mapOut = s.mapOut := rfl

end issue

section powerUp

variable (s : State)

@[simp] theorem State.powerUp_switch : s.powerUp.switch = 0x00 := rfl
@[simp] theorem State.powerUp_dir : s.powerUp.dir = 0x00 := rfl
@[simp] theorem State.powerUp_hist : s.powerUp.hist = s.par.histReset := rfl
@[simp] theorem State.powerUp_calLo : s.powerUp.calLo = 0 := rfl
@[simp] theorem State.powerUp_calHi : s.powerUp.calHi = 0 := rfl
@[simp] theorem State.powerUp_sample : s.powerUp.sample = 0 := rfl
@[simp] theorem State.powerUp_calv : s.powerUp.calv = 0 := rfl
@[simp] theorem State.powerUp_swL : s.powerUp.swL = 0x00 := rfl
@[simp] theorem State.powerUp_dirL : s.powerUp.dirL = 0x00 := rfl
@[simp] theorem State.powerUp_dout : s.powerUp.dout = 0b00 := rfl
@[simp] theorem State.powerUp_ocr : s.powerUp.ocr = (Config.ocrReset s.par.wOcr).toNat := rfl
@[simp] theorem State.powerUp_ph : s.powerUp.ph = 0 := rfl
@[simp] theorem State.powerUp_ie : s.powerUp.ie = false := rfl
@[simp] theorem State.powerUp_stat : s.powerUp.stat = [] := rfl
@[simp] theorem State.powerUp_req : s.powerUp.req = [] := rfl
@[simp] theorem State.powerUp_par : s.powerUp.par = s.par := rfl
@[simp] theorem State.powerUp_script : s.powerUp.script = s.script := rfl
@[simp] theorem State.powerUp_tick : s.powerUp.tick = s.tick := rfl
@[simp] theorem State.powerUp_mapOut : s.powerUp.mapOut = 0 := rfl

end powerUp

end Sys2Proof.Machine
end

