-- ==== Sys2Proof/Laws/Ops.lean ====
section
/-! SUPPORT. What each shared operation over the state and each computation on operands and flags does, said once. -/

namespace Sys2Proof.Machine

/-! ## Conditional emission and the taking of an event -/

/-- A conditional emission is an append of one record or of none. -/
theorem State.emitIf_eq (s : State) (c : Bool) (r : StatusRecord) :
    s.emitIf c r = { s with stat := s.stat ++ if c then [r] else [] } := by
  cases c <;> simp [State.emitIf, State.emit]

/-- An event runs its handler while `IE = 1` (R120). -/
theorem State.takeEvent_enabled {s : State} (h : s.ie = true) (body : State → State) : s.takeEvent body = body s := by
  simp [State.takeEvent, h]

/-- An event does nothing while `IE = 0` (R230). -/
theorem State.takeEvent_masked {s : State} (h : s.ie = false) (body : State → State) : s.takeEvent body = s := by
  simp [State.takeEvent, h]

/-! ## Flags -/

@[simp] theorem toggleIf_false (f : Byte) : toggleIf false f = f := rfl

@[simp] theorem toggleIf_true (f : Byte) : toggleIf true f = f ^^^ 0x01 := rfl

/-- A toggle is an exclusive or with the toggle signal in bit 0 (R91, R123). -/
theorem toggleIf_eq_xor (t : Bool) (f : Byte) : toggleIf t f = f ^^^ (if t then 0x01 else 0x00) := by
  cases t <;> simp

/-- A bit of the change mask is one exactly where its words differ (R121). -/
theorem changed_getLsbD (cur hist : Byte) (k : Nat) :
    (changed cur hist).getLsbD k = true ↔ hist.getLsbD k ≠ cur.getLsbD k := by
  rw [changed, BitVec.getLsbD_xor]
  cases cur.getLsbD k <;> cases hist.getLsbD k <;> decide

/-- The switch toggles exactly when its bit differs (R121, R123). -/
theorem tglSw_eq (p : Params) (cur hist : Byte) :
    tglSw p cur hist = (cur.getLsbD p.swBit.val != hist.getLsbD p.swBit.val) := BitVec.getLsbD_xor

/-- The direction toggles exactly when its bit differs (R121, R123). -/
theorem tglDir_eq (p : Params) (cur hist : Byte) :
    tglDir p cur hist = (cur.getLsbD p.dirBit.val != hist.getLsbD p.dirBit.val) := BitVec.getLsbD_xor

/-- What the handler of an event writes, as one update: the history, the two flags, and up to two records (R122). -/
theorem edgeBody_eq (cur : Byte) (s : State) :
    edgeBody cur s =
      { s with
        hist := cur
        switch := toggleIf (tglSw s.par cur s.hist) s.switch
        dir := toggleIf (tglDir s.par cur s.hist) s.dir
        stat := s.stat ++
            (if tglSw s.par cur s.hist then
              [⟨.stSwitch, uval (toggleIf (tglSw s.par cur s.hist) s.switch), 0⟩] else []) ++
          (if tglDir s.par cur s.hist then
            [⟨.stDir, uval (toggleIf (tglDir s.par cur s.hist) s.dir), 0⟩] else []) } := by
  simp only [edgeBody, State.emitIf_eq, State.setDetector]

theorem enabled_iff (sw : Byte) : enabled sw = true ↔ sw ≠ 0x00 := by simp [enabled]

/-! ## Operands -/

/-- A value of `N` bits is carried whole by `N` wires. -/
theorem truncTo_of_lt {w v : Nat} (h : v < 2 ^ w) : truncTo w v = v := Nat.mod_eq_of_lt h

/-- `N` wires carry a value of `N` bits. -/
theorem truncTo_lt (w v : Nat) : truncTo w v < 2 ^ w := Nat.mod_lt _ (Nat.two_pow_pos w)

/-- An integer of the range of `N` bits is the value of its own word (R7). -/
theorem signedOf_of_inSigned {w : Nat} {v : Int} (hw : 0 < w) (h : -2 ^ (w - 1) ≤ v ∧ v < 2 ^ (w - 1)) :
    signedOf w v = v := by
  obtain ⟨n, rfl⟩ : ∃ n, w = n + 1 := ⟨w - 1, by omega⟩
  simp only [Nat.add_sub_cancel] at h
  apply Int.bmod_eq_of_le <;> push_cast <;> rw [pow_succ] <;> omega

/-- What a word of `N` bits holds is in its range (R7). -/
theorem signedOf_inSigned {w : Nat} (hw : 0 < w) (v : Int) :
    -2 ^ (w - 1) ≤ signedOf w v ∧ signedOf w v < 2 ^ (w - 1) := by
  obtain ⟨n, rfl⟩ : ∃ n, w = n + 1 := ⟨w - 1, by omega⟩
  have hk : 0 < (2 : Int) ^ n := by positivity
  simp only [Nat.add_sub_cancel, signedOf, Int.bmod_def]
  push_cast
  rw [pow_succ]
  generalize (2 : Int) ^ n = k at hk ⊢
  have h1 := Int.emod_nonneg v (show k * 2 ≠ 0 by omega)
  have h2 := Int.emod_lt_of_pos v (show 0 < k * 2 by omega)
  constructor <;> split <;> omega

/-- The constraints of R4 on a well-formed instance, one by one. -/
theorem wf_parts {p : Params} (h : p.wf = true) :
    p.swBit ≠ p.dirBit ∧ p.wAdc + p.wOcr + 2 ≤ p.wInt ∧ p.outLo < 2 ^ p.wOcr ∧ p.outHi < 2 ^ p.wOcr :=
  of_decide_eq_true h

/-- Division truncated toward zero never makes a number larger (R146, R147). -/
theorem natAbs_tdiv_le (a b : Int) : (a.tdiv b).natAbs ≤ a.natAbs := by
  rw [Int.natAbs_tdiv]
  exact Nat.div_le_self _ _

/-- The product of the mapper stays below `2^(W_ADC + W_OCR)` (R146). -/
theorem mapProduct_bound {wa wo value srcLow dstLow dstHigh : Nat} (hv : value < 2 ^ wa) (hl : srcLow < 2 ^ wa)
    (hc : dstLow < 2 ^ wo) (hd : dstHigh < 2 ^ wo) :
    (((value : Int) - srcLow) * ((dstHigh : Int) - dstLow)).natAbs < 2 ^ (wa + wo) := by
  rw [Int.natAbs_mul, pow_add]
  exact Nat.mul_lt_mul'' (by omega) (by omega)

/-- The mapper's integer result is below `2^(W_ADC + W_OCR + 1)` (R146). -/
theorem mapInt_bound {wa wo value srcLow dstLow dstHigh : Nat} (srcHigh : Int) (hv : value < 2 ^ wa)
    (hl : srcLow < 2 ^ wa) (hc : dstLow < 2 ^ wo) (hd : dstHigh < 2 ^ wo) :
    (mapInt value srcLow srcHigh dstLow dstHigh).natAbs < 2 ^ (wa + wo + 1) := by
  have hm := mapProduct_bound hv hl hc hd
  have hq := natAbs_tdiv_le (((value : Int) - srcLow) * ((dstHigh : Int) - dstLow)) (srcHigh - srcLow)
  have hw : 2 ^ wo ≤ 2 ^ (wa + wo) := Nat.pow_le_pow_right (by decide) (by omega)
  rw [pow_succ]
  unfold mapInt
  split
  · omega
  · exact lt_of_le_of_lt (Int.natAbs_add_le _ _) (by omega)

/-- On operands of the instance's widths the mapper unit gives the integer result, whatever the instance (R146). -/
theorem mapUnit_eq_mapInt {p : Params} (hp : p.wf = true) {value srcLow dstLow dstHigh : Nat} (srcHigh : Nat)
    (hv : value < 2 ^ p.wAdc) (hl : srcLow < 2 ^ p.wAdc) (hc : dstLow < 2 ^ p.wOcr) (hd : dstHigh < 2 ^ p.wOcr) :
    mapUnit p value srcLow srcHigh dstLow dstHigh = mapInt value srcLow srcHigh dstLow dstHigh := by
  have hb := mapInt_bound srcHigh hv hl hc hd
  obtain ⟨-, hw, -, -⟩ := wf_parts hp
  have hpow : 2 ^ (p.wAdc + p.wOcr + 1) ≤ 2 ^ (p.wInt - 1) := Nat.pow_le_pow_right (by decide) (by omega)
  apply signedOf_of_inSigned (by omega)
  zify at hb hpow
  rw [abs_lt] at hb
  constructor <;> omega

/-- The actuator stage that truncates (R195). -/
theorem act_truncates {p : Params} (h : p.actClamp = false) (v : Int) : (act p v : Int) = v % 2 ^ p.wOcr := by
  have h2 := Int.emod_nonneg v (show (2 : Int) ^ p.wOcr ≠ 0 by positivity)
  rw [act, if_neg (by simp [h]), Int.toNat_of_nonneg h2]

/-- The actuator stage that saturates (R195). -/
theorem act_saturates {p : Params} (h : p.actClamp = true) (v : Int) :
    (act p v : Int) = max (min (p.outLo : Int) p.outHi) (min (max (p.outLo : Int) p.outHi) v) := by
  rw [act, if_pos h, Int.toNat_of_nonneg (by omega)]

/-- The compare register gets a value of its width (R29, R101). -/
theorem act_lt {p : Params} (hp : p.wf = true) (v : Int) : act p v < 2 ^ p.wOcr := by
  obtain ⟨-, -, h1, h2⟩ := wf_parts hp
  cases h : p.actClamp
  · have := act_truncates h v
    have h3 := Int.emod_lt_of_pos v (show (0 : Int) < 2 ^ p.wOcr by positivity)
    zify
    omega
  · have := act_saturates h v
    zify at h1 h2 ⊢
    omega

end Sys2Proof.Machine
end

