-- ==== Sys2Proof/Laws/Fits.lean ====
section
/-! SUPPORT. The registers hold values of the instance's widths: after reset, and after every operation (log entry 3). -/

namespace Sys2Proof.Machine

/-- Zero is a value of every width (R7). -/
theorem inSigned_zero (w : Nat) : inSigned w 0 := by
  have : (0 : Int) < 2 ^ (w - 1) := by positivity
  constructor <;> omega

/-- What the mapper's result wires carry is a value of their width (R99). -/
theorem mapUnit_inSigned {p : Params} (hp : p.wf = true) (v a b c d : Nat) : inSigned p.wInt (mapUnit p v a b c d) :=
  signedOf_inSigned (by have := (wf_parts hp).2.1; omega) _

/-- After reset every register fits its width, whatever the unwritten ones hold (R39). -/
theorem resetWith_fits (p : Params) : (State.resetWith p).Fits where
  calLo := Nat.two_pow_pos _
  calHi := Nat.two_pow_pos _
  sample := Nat.two_pow_pos _
  ocr := (Config.ocrReset p.wOcr).isLt
  calv := inSigned_zero _
  mapOut := inSigned_zero _

/-- Whether the registers fit is a matter of them and of the instance alone. -/
theorem State.Fits.congr {s t : State} (h : s.Fits) (hp : t.par = s.par) (h1 : t.calLo = s.calLo)
    (h2 : t.calHi = s.calHi) (h3 : t.sample = s.sample) (h4 : t.ocr = s.ocr) (h5 : t.calv = s.calv)
    (h6 : t.mapOut = s.mapOut) : t.Fits := by
  constructor <;> simp only [hp, h1, h2, h3, h4, h5, h6]
  exacts [h.calLo, h.calHi, h.sample, h.ocr, h.calv, h.mapOut]

/-- Reset leaves registers that fit. -/
theorem powerUp_fits (s : State) : s.powerUp.Fits :=
  (resetWith_fits s.par).congr rfl rfl rfl rfl rfl rfl rfl

/-- Every operation, on operands of any size, keeps the registers within their widths. -/
theorem exec_fits {i : Instr} {s t : State} (hp : s.par.wf = true) (h : s.Fits) (he : exec i s = .next t) : t.Fits := by
  have hpow : ∀ n : Nat, 0 < 2 ^ n := Nat.two_pow_pos
  cases i with
  | calinit =>
    cases he
    exact { h with calLo := Nat.sub_lt (hpow _) Nat.one_pos, calHi := hpow _ }
  | calsmp draw =>
    cases draw with
    | none => cases he; exact h.congr rfl rfl rfl rfl rfl rfl rfl
    | some v =>
      cases he
      exact { h with calLo := lt_of_le_of_lt (min_le_left _ _) h.calLo, calHi := max_lt h.calHi (truncTo_lt _ _) }
  | sample adc => cases he; exact { h with sample := truncTo_lt _ _ }
  | mapPhase => cases he; exact { h with calv := mapUnit_inSigned hp _ _ _ _ _ }
  | mapFn v a b c d => cases he; exact { h with mapOut := mapUnit_inSigned hp _ _ _ _ _ }
  | pwmwr => cases he; exact { h with ocr := act_lt hp _ }
  | drvFwd => cases he; exact { h with ocr := act_lt hp _ }
  | drvRev => cases he; exact { h with ocr := act_lt hp _ }
  | drvErr d => cases he; exact { h with ocr := act_lt hp _ }
  | drive =>
    simp only [exec, execDrive] at he
    split at he
    · cases he; exact h.congr rfl rfl rfl rfl rfl rfl rfl
    · split at he <;> cases he <;> exact h.congr rfl rfl rfl rfl rfl rfl rfl
  | edge cur =>
    cases he
    cases hie : s.ie
    · rw [State.takeEvent_masked hie]; exact h
    · rw [State.takeEvent_enabled hie, edgeBody_eq]; exact h.congr rfl rfl rfl rfl rfl rfl rfl
  | _ => cases he; exact h.congr rfl rfl rfl rfl rfl rfl rfl

end Sys2Proof.Machine
end

