-- ==== Sys2Proof/Laws/PerInstr.lean ====
section
/-! SUPPORT. One lemma for each constructor about its syntax: a phase is encoded as the foreground schedule word with
its code (30_encoding.md R95, R105), and an operation with no phase code is encoded as something else. -/

namespace Sys2Proof.Laws.PhaseField

/-- The encoding of an operation is a foreground schedule word with its phase code if it has one, and no such word
otherwise. -/
def Statement (i : Instr) : Prop :=
  match phaseCode i with
  | some p => ∃ a, encode i = .sched (schedWord 0 p a)
  | none => ∀ p a, encode i ≠ .sched (schedWord 0 p a)

theorem setup : Statement .setup := ⟨0, rfl⟩
theorem calinit : Statement .calinit := ⟨0, rfl⟩
theorem calsmp (draw : Option Nat) : Statement (.calsmp draw) := by
  cases draw with
  | none => exact ⟨expiredArg, rfl⟩
  | some v => exact ⟨BitVec.ofNat 16 v, rfl⟩
theorem calend : Statement .calend := ⟨0, rfl⟩
theorem sample (adc : Nat) : Statement (.sample adc) := ⟨BitVec.ofNat 16 adc, rfl⟩
theorem mapPhase : Statement .mapPhase := ⟨0, rfl⟩
theorem report : Statement .report := ⟨0, rfl⟩
theorem rdsw : Statement .rdsw := ⟨0, rfl⟩
theorem rddir : Statement .rddir := ⟨0, rfl⟩
theorem drive : Statement .drive := ⟨0, rfl⟩
theorem pwmwr : Statement .pwmwr := ⟨0, rfl⟩
theorem offout : Statement .offout := ⟨0, rfl⟩
theorem offrpt : Statement .offrpt := ⟨0, rfl⟩
theorem sleep : Statement .sleep := ⟨0, rfl⟩
theorem edge (cur : Byte) : Statement (.edge cur) := by
  intro p a h
  simp only [encode, Stimulus.sched.injEq] at h
  have hk := congrArg schedKind h
  simp at hk
theorem mapFn (value srcLow srcHigh dstLow dstHigh : Nat) :
    Statement (.mapFn value srcLow srcHigh dstLow dstHigh) := by intro p a h; cases h
theorem drvOff (dirL : Byte) : Statement (.drvOff dirL) := by intro p a h; cases h
theorem drvFwd : Statement .drvFwd := by intro p a h; cases h
theorem drvRev : Statement .drvRev := by intro p a h; cases h
theorem drvErr (dirL : Byte) : Statement (.drvErr dirL) := by intro p a h; cases h

end Sys2Proof.Laws.PhaseField
end

