-- ==== Sys2Proof/Laws/Step.lean ====
section
/-! SUPPORT. What a decoded stimulus can be, what `fetch` can answer, and what a step can do, said once: a proof about
every step takes `step_cases` apart and looks at no other definition of the step. -/

namespace Sys2Proof

/-! ## What a stimulus can decode to -/

/-- A foreground word runs a phase whose code it holds (R105). -/
theorem phaseCode_of_decodePhaseStep {p : PhaseCode} {a : BitVec 16} {i : Instr}
    (h : decodePhaseStep p a = .ok i) : phaseCode i = some p := by
  obtain ⟨⟨n, hn⟩⟩ := p
  unfold decodePhaseStep at h
  split at h
  · rename_i h2
    have h2' : n = 2 := h2
    subst h2'
    split at h
    · cases h; rfl
    · split at h <;> cases h
      rfl
  · rename_i h4
    have h4' : n = 4 := h4
    subst h4'
    cases h
    rfl
  · cases hp : phaseInstr ⟨⟨n, hn⟩⟩ none 0 with
    | error e => rw [hp] at h; cases h
    | ok j =>
      rw [hp] at h
      simp only [Except.bind] at h
      split at h <;> cases h
      exact phaseCode_of_phaseInstr hp

/-- A schedule word is a phase, an event or reset, and nothing else (R105). -/
theorem decodeSched_ok {w : SchedWord} {c : Command} (h : decodeSched w = .ok c) :
    (∃ i, c = .run i ∧ schedKind w = 0 ∧ decodePhaseStep (schedPhase w) (schedArg w) = .ok i) ∨
    (∃ cur, c = .run (.edge cur) ∧ w = schedWord 1 0 (cur.setWidth 16)) ∨ (c = .reset ∧ w = schedWord 2 0 0) := by
  unfold decodeSched at h
  split at h
  · rename_i hk
    left
    cases hd : decodePhaseStep (schedPhase w) (schedArg w) <;> rw [hd] at h <;> cases h
    exact ⟨_, rfl, BitVec.eq_of_toNat_eq hk, rfl⟩
  · rename_i hk
    right; left
    split at h
    · cases h
    · rename_i hp
      split at h <;> cases h
      rename_i ha
      refine ⟨_, rfl, ?_⟩
      have hk' : schedKind w = 1 := BitVec.eq_of_toNat_eq hk
      have ha' : ((schedArg w).setWidth Config.wIn).setWidth 16 = schedArg w := by
        apply BitVec.eq_of_toNat_eq
        have hlt : (schedArg w).toNat < 256 := ha
        rw [BitVec.toNat_setWidth, BitVec.toNat_setWidth, Nat.mod_eq_of_lt ha]
        omega
      rw [ha']
      conv_lhs => rw [← schedWord_fields w, hk', not_ne_iff.mp hp]
  · rename_i hk
    right; right
    split at h
    · cases h
    · rename_i hp
      split at h <;> cases h
      rename_i ha
      have hk' : schedKind w = 2 := BitVec.eq_of_toNat_eq hk
      refine ⟨rfl, ?_⟩
      conv_lhs => rw [← schedWord_fields w, hk', not_ne_iff.mp hp, ha]
  · cases h

/-- An operation a selector picks is a row of the multiplexer, which is no phase (R93). -/
theorem phaseCode_decodeSelector (sel : Selector) : phaseCode (decodeSelector sel) = none := by
  unfold decodeSelector
  split
  · rfl
  · split
    · rfl
    · split <;> rfl

end Sys2Proof

namespace Sys2Proof.Machine

/-- The operations of wires driven alone (log entry 10). -/
def unitOperation (i : Instr) : Prop :=
  (∃ v a b c d, i = .mapFn v a b c d) ∨ (∃ d, i = .drvOff d) ∨ i = .drvFwd ∨ i = .drvRev ∨ ∃ d, i = .drvErr d

theorem unitOperation_decodeSelector (sel : Selector) : unitOperation (decodeSelector sel) := by
  unfold decodeSelector unitOperation
  split
  · simp
  · split
    · simp
    · split <;> simp

/-- The operand check passes exactly the operations whose operands are of the instance's widths. -/
theorem operandCheck_ok {p : Params} {i : Instr} : operandCheck p i = .ok () ↔ operandsFit p i = true := by
  unfold operandCheck
  split <;> simp_all

/-- The operand check stops for one reason. -/
theorem operandCheck_error {p : Params} {i : Instr} {r : Refusal} (h : operandCheck p i = .error r) :
    operandsFit p i = false ∧ r = .operandTooWide := by
  unfold operandCheck at h
  split at h <;> simp_all

/-- What is admitted: a scheduled event with `IE = 1`, a scheduled phase that `PH` names, reset, and every stimulus that
is no schedule word. -/
theorem admit_ok {st : Stimulus} {c : Command} {s : State} (h : admission st c s = .ok ()) :
    (∃ w cur, st = .sched w ∧ c = .run (.edge cur) ∧ s.ie = true) ∨
    (∃ w i, st = .sched w ∧ c = .run i ∧ phaseCode i = some s.ph) ∨
    c = .reset ∨ ∀ w, st ≠ .sched w := by
  unfold admission at h
  split at h
  · split at h
    · exact .inl ⟨_, _, rfl, rfl, ‹_›⟩
    · cases h
  · split at h
    · exact .inr (.inl ⟨_, _, rfl, rfl, ‹_›⟩)
    · cases h
  · exact .inr (.inr (.inl rfl))
  all_goals exact .inr (.inr (.inr (by simp)))

/-- The free choice is an event while `IE = 1`, or the phase `PH` names (R224). -/
theorem freeInstr_ok {s : State} {i : Instr} (h : freeInstr s = .ok i) :
    (∃ cur, i = .edge cur ∧ s.ie = true) ∨ phaseCode i = some s.ph := by
  unfold freeInstr at h
  split at h
  · rename_i cur hc
    cases h
    split at hc
    · exact .inl ⟨cur, rfl, ‹_›⟩
    · cases hc
  · exact .inr (phaseCode_of_phaseInstr h)

/-- What one step to a next state can be. `s₁` is the state with its stimulus consumed, or its draw counted. The step
is: the phase `PH` names; an event; an operation on wires driven alone, if the next stimulus is one; or reset. -/
theorem step_cases {s t : State} (h : step s = .next t) :
    ∃ s₁, ((s.script = [] ∧ s₁ = { s with tick := s.tick + 1 }) ∨
        ∃ st rest, s.script = st :: rest ∧ s₁ = { s with script := rest }) ∧
      ((∃ i, exec i s₁ = .next t ∧
          (phaseCode i = some s.ph ∨ (∃ cur, i = .edge cur) ∨ (s.blockNext = false ∧ unitOperation i))) ∨
        (s.resetNext = true ∧ t = s₁.powerUp)) := by
  unfold step fetch at h
  split at h
  · cases h
  · rename_i c s₁ hf
    split at hf
    · rename_i hs
      split at hf <;> cases hf
      rename_i i hi
      refine ⟨_, .inl ⟨hs, rfl⟩, .inl ⟨i, h, ?_⟩⟩
      rcases freeInstr_ok hi with ⟨cur, rfl, -⟩ | hp
      · exact .inr (.inl ⟨cur, rfl⟩)
      · exact .inl hp
    · rename_i st rest hs
      split at hf
      · cases hf
      · rename_i c' hd
        split at hf <;> cases hf
        rename_i ha
        refine ⟨_, .inr ⟨st, rest, hs, rfl⟩, ?_⟩
        cases c with
        | reset =>
          refine .inr ⟨by simp [State.resetNext, hs, hd], ?_⟩
          cases h; rfl
        | run i =>
          refine .inl ⟨i, h, ?_⟩
          rcases admit_ok ha with ⟨w, cur, -, hc, -⟩ | ⟨w, j, -, hc, hp⟩ | hc | hn
          · cases hc; exact .inr (.inl ⟨cur, rfl⟩)
          · cases hc; exact .inl hp
          · cases hc
          · cases st with
            | sched w => exact absurd rfl (hn w)
            | evt pin => cases hd; exact .inr (.inl ⟨pin, rfl⟩)
            | mux sel =>
              cases hd
              exact .inr (.inr ⟨by simp [State.blockNext, hs, stimulusOfBlock], unitOperation_decodeSelector sel⟩)
            | func v a b c d =>
              cases hd
              exact .inr (.inr ⟨by simp [State.blockNext, hs, stimulusOfBlock], .inl ⟨v, a, b, c, d, rfl⟩⟩)

/-- A scripted stimulus that decodes to an admitted command is that command's step. -/
theorem step_of_script {s : State} {st : Stimulus} {rest : List Stimulus} {c : Command} (hs : s.script = st :: rest)
    (hd : decode st = .ok c) (ha : admission st c s = .ok ()) : step s = runCommand exec c { s with script := rest } := by
  simp [step, fetch, hs, hd, ha]

/-- A scripted stimulus that stands for nothing is refused. -/
theorem step_undecodable {s : State} {st : Stimulus} {rest : List Stimulus} {e : DecodeError}
    (hs : s.script = st :: rest) (hd : decode st = .error e) : step s = .refused (.undecodable e) := by
  simp [step, fetch, hs, hd]

/-- A scripted stimulus that is not admitted is refused. -/
theorem step_not_admitted {s : State} {st : Stimulus} {rest : List Stimulus} {c : Command} {r : Refusal}
    (hs : s.script = st :: rest) (hd : decode st = .ok c) (ha : admission st c s = .error r) : step s = .refused r := by
  simp [step, fetch, hs, hd, ha]

/-- With nothing scripted the step is the free choice, its draw counted. -/
theorem step_free {s : State} {i : Instr} (hs : s.script = []) (hi : freeInstr s = .ok i) :
    step s = exec i { s with tick := s.tick + 1 } := by
  simp [step, fetch, hs, hi, runCommand]

/-! ## Runs -/

/-- No steps: the same state. -/
theorem run_zero (s : State) : Sys2Proof.core.run 0 s = .next s := rfl

/-- A run of any machine goes through a next state. -/
theorem coreRun_succ (M : Host.Core) {s t : M.State} (h : M.step s = .next t) (n : Nat) :
    M.run (n + 1) s = M.run n t := by rw [Host.Core.run, h]

/-- What a run of any machine that ends in a next state did first. -/
theorem coreRun_succ_next (M : Host.Core) {s u : M.State} {n : Nat} (h : M.run (n + 1) s = .next u) :
    ∃ t, M.step s = .next t ∧ M.run n t = .next u := by
  rw [Host.Core.run] at h
  split at h
  · exact ⟨_, by assumption, h⟩
  · cases h
  · cases h

/-- A run goes through a next state. -/
theorem run_succ {s t : State} (h : step s = .next t) (n : Nat) :
    Sys2Proof.core.run (n + 1) s = Sys2Proof.core.run n t := coreRun_succ Sys2Proof.core h n

/-- What a run that ends in a next state did first. -/
theorem run_succ_next {s u : State} {n : Nat} (h : Sys2Proof.core.run (n + 1) s = .next u) :
    ∃ t, step s = .next t ∧ Sys2Proof.core.run n t = .next u := coreRun_succ_next Sys2Proof.core h

end Sys2Proof.Machine
end

