-- ==== Sys2Proof/Tests/Slice0.lean ====
section
/-! SUPPORT. Tests of the model: the well-formedness checks, words written out from the encodings of 30_encoding.md,
vectors of 95_test_vectors.md (its ids stand at each test), and a witness for the hypotheses of every statement. -/

namespace Sys2Proof.Tests

open Sys2Proof.Machine

/-- The parameters of 95_test_vectors.md. -/
def vectorPar : Params where
  wAdc := 10
  wOcr := 16
  wInt := 32
  swBit := 4
  dirBit := 5
  outLo := 0
  outHi := 39999
  histReset := 0x00
  actClamp := false
  adcCh := 0
  calDuration := 0
  period := 0

/-- The state after reset under those parameters. -/
def base : State := State.resetWith vectorPar

/-- The next state, if there is one. -/
def after (o : Host.Outcome State Fault Refusal) : Option State :=
  match o with
  | .next s => some s
  | .fault _ => none
  | .refused _ => none

/-- The refusal, if there is one. -/
def refusal (o : Host.Outcome State Fault Refusal) : Option Refusal :=
  match o with
  | .next _ => none
  | .fault _ => none
  | .refused r => some r

/-! ## Well-formedness: each check refuses an ill-formed term -/

theorem test_wellFormed_refuses_drvErr_0 : wellFormed (.drvErr 0) = false := by decide
theorem test_wellFormed_refuses_drvErr_1 : wellFormed (.drvErr 1) = false := by decide
theorem test_wellFormed_accepts_drvErr_2 : wellFormed (.drvErr 2) = true := by decide
theorem test_params_refuse_equal_bits : Params.wf { vectorPar with dirBit := 4 } = false := by decide
theorem test_params_accept_vectors : vectorPar.wf = true := by decide
theorem test_params_refuse_narrow_W_INT : Params.wf { vectorPar with wInt := 27 } = false := by decide
theorem test_params_accept_narrowest_W_INT : Params.wf { vectorPar with wInt := 28 } = true := by decide
theorem test_params_refuse_wide_OUT_LO : Params.wf { vectorPar with outLo := 65536 } = false := by decide
theorem test_params_refuse_wide_OUT_HI : Params.wf { vectorPar with wOcr := 15 } = false := by decide
theorem test_wellFormed_refuses_wide_calsmp : wellFormed (.calsmp (some 0x8000)) = false := by decide
theorem test_wellFormed_refuses_wide_sample : wellFormed (.sample 0x10000) = false := by decide

/-! ## Decoding: one word for each constructor, from R93, R95, R96, R105 -/

theorem test_decode_setup : decode (.sched 0b0000_0000_0000000000000000) = .ok (.run .setup) := by decide
theorem test_decode_calinit : decode (.sched 0b0000_0001_0000000000000000) = .ok (.run .calinit) := by decide
theorem test_decode_calsmp : decode (.sched 0b0000_0010_0000000110010000) = .ok (.run (.calsmp (some 400))) := by decide
theorem test_decode_expired : decode (.sched 0b0000_0010_1000000000000000) = .ok (.run (.calsmp none)) := by decide
theorem test_decode_calend : decode (.sched 0b0000_0011_0000000000000000) = .ok (.run .calend) := by decide
theorem test_decode_sample : decode (.sched 0b0000_0100_0000000111110100) = .ok (.run (.sample 500)) := by decide
theorem test_decode_map : decode (.sched 0b0000_0101_0000000000000000) = .ok (.run .mapPhase) := by decide
theorem test_decode_report : decode (.sched 0b0000_0110_0000000000000000) = .ok (.run .report) := by decide
theorem test_decode_rdsw : decode (.sched 0b0000_0111_0000000000000000) = .ok (.run .rdsw) := by decide
theorem test_decode_rddir : decode (.sched 0b0000_1000_0000000000000000) = .ok (.run .rddir) := by decide
theorem test_decode_drive : decode (.sched 0b0000_1001_0000000000000000) = .ok (.run .drive) := by decide
theorem test_decode_pwmwr : decode (.sched 0b0000_1010_0000000000000000) = .ok (.run .pwmwr) := by decide
theorem test_decode_offout : decode (.sched 0b0000_1011_0000000000000000) = .ok (.run .offout) := by decide
theorem test_decode_offrpt : decode (.sched 0b0000_1100_0000000000000000) = .ok (.run .offrpt) := by decide
theorem test_decode_sleep : decode (.sched 0b0000_1101_0000000000000000) = .ok (.run .sleep) := by decide
theorem test_decode_edge : decode (.sched 0b0001_0000_0000000000010000) = .ok (.run (.edge 0x10)) := by decide
theorem test_decode_event : decode (.evt 0b00010000) = .ok (.run (.edge 0x10)) := by decide
theorem test_decode_reset : decode (.sched 0b0010_0000_0000000000000000) = .ok .reset := by decide
theorem test_decode_func : decode (.func 512 0 1023 0 39999) = .ok (.run (.mapFn 512 0 1023 0 39999)) := by decide
theorem test_decode_drvOff : decode (.mux 0b0_10101010) = .ok (.run (.drvOff 0xAA)) := by decide
theorem test_decode_drvFwd : decode (.mux 0b1_00000000) = .ok (.run .drvFwd) := by decide
theorem test_decode_drvRev : decode (.mux 0b1_00000001) = .ok (.run .drvRev) := by decide
theorem test_decode_drvErr : decode (.mux 0b1_00000010) = .ok (.run (.drvErr 2)) := by decide

/-! Reserved and ill-formed words. -/

theorem test_decode_code_14 : decode (.sched 0x0E0000) = .error .reservedPhase := by decide
theorem test_decode_code_15 : decode (.sched 0x0F0000) = .error .reservedPhase := by decide
theorem test_decode_kind_3 : decode (.sched 0x300000) = .error .reservedKind := by decide
theorem test_decode_event_with_phase : decode (.sched 0x110010) = .error .phaseFieldNotZero := by decide
theorem test_decode_setup_with_argument : decode (.sched 0x000001) = .error .argumentNotZero := by decide
theorem test_decode_expired_with_draw : decode (.sched 0x028001) = .error .expiredWithDraw := by decide

/-! The codes of R97 and R98. -/

theorem test_status_codes :
    StatusKind.ofCode 0 = some .stSwitch ∧ StatusKind.ofCode 1 = some .stDir ∧ StatusKind.ofCode 2 = some .stSample ∧
    StatusKind.ofCode 3 = some .stOff ∧ StatusKind.ofCode 4 = some .stDirerr ∧ StatusKind.ofCode 5 = none ∧
    StatusKind.ofCode 7 = none ∧ StatusKind.code .stDirerr = 4 := by decide
theorem test_request_codes : Request.code .initAdc = 0 ∧ Request.code .initPwm = 1 := by decide

/-! ## The host's questions: a table word, decoded and run as the first thing after reset -/

theorem test_table_phase : decodeTableWord 8 0xA = some .pwmwr := by decide
theorem test_table_reserved : decodeTableWord 8 0xE = none := by decide
theorem test_table_selector : decodeTableWord 16 0x101 = some .drvRev := by decide
theorem test_table_error_row : decodeTableWord 16 0x1FF = some (.drvErr 0xFF) := by decide
theorem test_table_event : decodeTableWord 8 0x30 = some (.edge 0x30) := by decide
theorem test_table_func : decodeTableWord 0 0 = some (.mapFn 0 0 0 0 0) := by decide
theorem test_fetch_phases_after_reset : ∀ c < 14, (after (step (State.reset.withFetchWord 8 c))).isSome = true := by
  intro c hc
  interval_cases c <;> rfl
theorem test_fetch_event_after_reset : (after (step (State.reset.withFetchWord 8 0x30))).isSome = true := rfl
theorem test_fetch_drive_after_reset : (after (step (State.reset.withFetchWord 8 9))).map (·.dout) = some 0b10 := by decide
theorem test_fetch_rows_after_reset :
    (after (step (State.reset.withFetchWord 16 0x000))).map (·.dout) = some 0b00 ∧
    (after (step (State.reset.withFetchWord 16 0x100))).map (·.dout) = some 0b10 ∧
    (after (step (State.reset.withFetchWord 16 0x101))).map (·.dout) = some 0b01 ∧
    (after (step (State.reset.withFetchWord 16 0x102))).map (·.dout) = some 0b00 := by decide
/-- With nothing placed the first step after reset is `SETUP`. -/
theorem test_first_step_is_setup : (after (step State.reset)).map (·.req) = some [.initAdc, .initPwm] := by decide

/-! ## Phases (95_test_vectors.md L1 to L17, K, A) -/

theorem test_setup_L1 : (after (exec .setup base)).map (fun s => (s.req, s.ph)) = some ([.initAdc, .initPwm], 1) := by
  decide
theorem test_calinit_bounds :
    (after (exec .calinit base)).map (fun s => (s.calLo, s.calHi, s.ie, s.ph)) = some (1023, 0, false, 2) := by decide
theorem test_calsmp_first_sample :
    (after (exec (.calsmp (some 400)) { base with calLo := 1023, calHi := 0 })).map (fun s => (s.calLo, s.calHi, s.ph))
      = some (400, 400, 2) := by decide
theorem test_calsmp_keeps_bound :
    (after (exec (.calsmp (some 700)) { base with calLo := 350, calHi := 400 })).map (fun s => (s.calLo, s.calHi))
      = some (350, 700) := by decide
theorem test_calend_unmasks : (after (exec .calend base)).map (fun s => (s.ie, s.ph)) = some (true, 4) := by decide
theorem test_sample_L2 : (after (exec (.sample 512) base)).map (fun s => (s.sample, s.ph)) = some (512, 5) := by decide
theorem test_map_L3 :
    (after (exec .mapPhase { base with sample := 512, calLo := 0, calHi := 1023 })).map (fun s => (s.calv, s.ph))
      = some (20019, 6) := by decide
theorem test_map_L16_degenerate :
    (after (exec .mapPhase
      { base with sample := 512, calLo := 300, calHi := 300, par := { vectorPar with outLo := 1000, outHi := 2000 } })).map
        (·.calv) = some 1000 := by decide
theorem test_report_L4 :
    (after (exec .report { base with sample := 512, calv := 20019 })).map (fun s => (s.stat, s.ph))
      = some ([⟨.stSample, 512, 20019⟩], 7) := by decide
theorem test_rdsw_L5 : (after (exec .rdsw { base with switch := 1 })).map (fun s => (s.swL, s.ph)) = some (1, 8) := by
  decide
theorem test_rdsw_L6 : (after (exec .rdsw base)).map (fun s => (s.swL, s.ph)) = some (0, 11) := by decide
theorem test_rddir_L7 : (after (exec .rddir { base with dir := 1 })).map (fun s => (s.dirL, s.ph)) = some (1, 9) := by
  decide
theorem test_drive_L9 :
    (after (exec .drive { base with dirL := 1, dout := 0b10 })).map (fun s => (s.dout, s.stat, s.ph))
      = some (0b01, [], 10) := by decide
theorem test_drive_L10 :
    (after (exec .drive { base with dirL := 2, dout := 0b10 })).map (fun s => (s.dout, s.stat, s.ph))
      = some (0b10, [⟨.stDirerr, 2, 0⟩], 10) := by decide
theorem test_pwmwr_L12_A8 :
    (after (exec .pwmwr { base with calv := -2499 })).map (fun s => (s.ocr, s.ph)) = some (63037, 13) := by decide
theorem test_pwmwr_clamped_A8_A6 :
    act { vectorPar with actClamp := true } (-2499) = 0 ∧ act { vectorPar with actClamp := true } 3999900 = 39999 := by
  decide
theorem test_offout_L13 :
    (after (exec .offout { base with dout := 0b01, ocr := 20019 })).map (fun s => (s.dout, s.ocr, s.ph))
      = some (0b00, 20019, 12) := by decide
theorem test_offrpt_L14 : (after (exec .offrpt base)).map (fun s => (s.stat, s.ph)) = some ([⟨.stOff, 0, 0⟩], 13) := by
  decide
/-- Another width of the samples: `2^12 - 1`, and a sample that ten bits do not hold (R4, R161, R182). -/
theorem test_calinit_twelve_bits :
    (after (exec .calinit { base with par := { vectorPar with wAdc := 12 } })).map (·.calLo) = some 4095 := by decide
theorem test_sample_twelve_bits :
    (after (step { base with ph := 4, par := { vectorPar with wAdc := 12 }, script := [.sched 0x040FFF] })).map
      (·.sample) = some 4095 := by decide
theorem test_sample_too_wide :
    refusal (step { base with ph := 4, script := [.sched 0x040400] }) = some .operandTooWide := by decide
/-- Another width of the compare register: -2499 mod 2^8 (R101, R195). -/
theorem test_pwmwr_eight_bits :
    (after (exec .pwmwr { base with calv := -2499, par := { vectorPar with wOcr := 8 } })).map (·.ocr) = some 61 := by decide
theorem test_sleep_L15 : (after (exec .sleep { base with ph := 13 })).map (·.ph) = some 4 := by decide
theorem test_reserved_L17 : refusal (step { base with ph := 14 }) = some (.undecodable .reservedPhase) := by decide

/-! ## The detector (E4, E17, E23, E26) -/

theorem test_edge_E4 :
    (after (exec (.edge 0x30) { base with ie := true })).map (fun s => (s.hist, s.switch, s.dir, s.stat))
      = some (0x30, 1, 1, [⟨.stSwitch, 1, 0⟩, ⟨.stDir, 1, 0⟩]) := by decide
theorem test_edge_E25 :
    (after (exec (.edge 0x10) { base with ie := true, switch := 2 })).map (fun s => (s.hist, s.switch, s.dir, s.stat))
      = some (0x10, 3, 0, [⟨.stSwitch, 3, 0⟩]) := by decide
theorem test_edge_E26_other_bits :
    (after (exec (.edge 0x81) { base with ie := true, par := { vectorPar with swBit := 0, dirBit := 7 } })).map
      (fun s => (s.switch, s.dir)) = some (1, 1) := by decide
theorem test_edge_E23_presented : (after (step { base with script := [.evt 0x10] })).map (·.hist) = some 0x00 := by decide
theorem test_edge_P8_scheduled : refusal (step { base with script := [.sched 0x100010] }) = some .eventMasked := by decide
theorem test_phase_P8_scheduled : refusal (step { base with script := [.sched 0x010000] }) = some .phaseMismatch := by
  decide

/-! ## The mapper and the multiplexer (M9, M24, M31, M32; R93) -/

theorem test_map_M9 : mapUnit vectorPar 50 100 900 0 39999 = -2499 := by decide
theorem test_map_M24_M26 : mapUnit vectorPar 4 5 10 0 3 = 0 ∧ mapUnit vectorPar 2 5 10 0 3 = -1 := by decide
theorem test_map_M31_M32 : mapUnit vectorPar 0 1023 1022 0 65535 = 67042305 ∧ mapUnit vectorPar 0 1023 1022 65535 0 = -66976770 := by decide
theorem test_mapFn_M17 : (after (exec (.mapFn 512 0 1023 2000 1000) base)).map (·.mapOut) = some 1500 := by decide
theorem test_drvOff :
    (after (exec (.drvOff 1) { base with dout := 0b01, ocr := 7 })).map (fun s => (s.dout, s.ocr, s.stat))
      = some (0b00, 7, [⟨.stOff, 0, 0⟩]) := by decide
theorem test_drvFwd :
    (after (exec .drvFwd { base with calv := 20019 })).map (fun s => (s.dout, s.ocr)) = some (0b10, 20019) := by decide
theorem test_drvRev :
    (after (exec .drvRev { base with calv := -1 })).map (fun s => (s.dout, s.ocr)) = some (0b01, 65535) := by decide
theorem test_drvErr :
    (after (exec (.drvErr 3) { base with dout := 0b01, calv := 5 })).map (fun s => (s.dout, s.ocr, s.stat))
      = some (0b01, 5, [⟨.stDirerr, 3, 0⟩]) := by decide

/-! ## Reset -/

theorem test_reset_word :
    (after (step { base with switch := 1, ph := 9, ie := true, stat := [⟨.stOff, 0, 0⟩], script := [.sched 0x200000] })).map
      (fun s => (s.switch, s.ph, s.ie, s.stat, s.dout)) = some (0, 0, false, [], 0b00) := by decide

/-! ## Witnesses: the hypotheses of each statement can be met, clause by clause -/

/-- A good state in the loop, at any of its phases on the enabled path. -/
def running : State := { base with ph := 9, ie := true, switch := 1, swL := 1, calLo := 100, calHi := 900 }

/-- A good state in the calibration window. -/
def calibrating : State := { base with ph := 2, calLo := 1023, calHi := 0 }

theorem running_fits : running.Fits :=
  { resetWith_fits vectorPar with calLo := by decide, calHi := by decide }
theorem calibrating_fits : calibrating.Fits :=
  { resetWith_fits vectorPar with calLo := by decide, calHi := by decide }
theorem running_inv : running.Inv where
  parWf := by decide
  fits := running_fits
  phaseLegal := by decide
  maskedUntilLoop := by decide
  switchLegal := .inr rfl
  dirLegal := .inl rfl
  dirLatchLegal := fun _ => .inl rfl
  doutLegal := by decide
  rangeLegal := fun _ => .inl (by decide)
  enabledPath := fun _ => by decide
  disabledPath := fun h => absurd h (by decide)
theorem calibrating_inv : calibrating.Inv where
  parWf := by decide
  fits := calibrating_fits
  phaseLegal := by decide
  maskedUntilLoop := by decide
  switchLegal := .inl rfl
  dirLegal := .inl rfl
  dirLatchLegal := fun h => absurd h (by decide)
  doutLegal := by decide
  rangeLegal := fun _ => .inr (by decide)
  enabledPath := fun h => absurd h (by decide)
  disabledPath := fun _ => rfl

/-- A good state stays good whatever the environment will present. -/
theorem inv_script {s : State} (h : s.Inv) (script : List Stimulus) : { s with script := script }.Inv :=
  ⟨h.1, ⟨h.2.1, h.2.2, h.2.3, h.2.4, h.2.5, h.2.6⟩, h.3, h.4, h.5, h.6, h.7, h.8, h.9, h.10, h.11⟩

theorem witness_PowerUpForgetsEverything : running.par = base.par ∧ running.tick = base.tick ∧ running ≠ base := by
  refine ⟨rfl, rfl, fun h => ?_⟩
  exact absurd (congrArg State.ie h) (by decide)
theorem witness_MapPhaseRescalesExactly :
    running.par.wf = true ∧ running.Fits ∧ running.calHi ≠ running.calLo ∧ base.par.wf = true ∧ base.Fits ∧
    base.calHi = base.calLo := ⟨by decide, running_fits, by decide, by decide, resetWith_fits _, by decide⟩
/-- A draw that ten bits hold, at the top of its range. -/
theorem witness_SampleLatchesTheDraw : 1023 < 2 ^ base.par.wAdc := by decide
theorem witness_RdswLatchesAndBranches : base.switch = 0x00 ∧ running.switch ≠ 0x00 := by decide
theorem witness_DriveSelectsOneOutput :
    running.dirL = 0x00 ∧ { running with dirL := 1 }.dirL = 0x01 ∧ 2 ≤ { running with dirL := 2 }.dirL.toNat := by decide
theorem witness_PwmwrWritesTheActuatorValue :
    base.par.actClamp = false ∧ { base with par := { vectorPar with actClamp := true } }.par.actClamp = true := by decide
theorem witness_EdgeTogglesChangedFlags : running.ie = true ∧ base.ie = false := by decide
theorem witness_MaskedEventHasNoEffect :
    { base with script := [.evt 0x10] }.ie = false ∧ { base with script := [.evt 0x10] }.script = .evt 0x10 :: [] := by
  decide
theorem witness_MapAloneChangesNoState :
    base.par.wf = true ∧ operandsFit base.par (.mapFn 512 0 1023 0 65535) = true ∧
    operandsFit base.par (.mapFn 512 300 300 1000 2000) = true ∧ 1023 ≠ 0 := by decide
theorem witness_StepRunsTheDecodedOperation :
    decode (.sched 0x090000) = .ok (.run .drive) ∧ (∀ p, phaseCode .drive = some p → running.ph = p) ∧
    decode (.sched 0x100010) = .ok (.run (.edge 0x10)) ∧ running.ie = true ∧
    decode (.mux 0x100) = .ok (.run .drvFwd) ∧ stimulusOfBlock (.mux 0x100) = false ∧
    operandsFit running.par .drive = true ∧ operandsFit running.par (.edge 0x10) = true ∧
    operandsFit running.par .drvFwd = true := by
  refine ⟨by decide, ?_, by decide, by decide, by decide, by decide, by decide, by decide, by decide⟩
  intro p hp
  cases hp
  rfl
theorem witness_FreeStepIsAnEventOrThePhase : base.script = [] ∧ base.ph.toNat < 14 := by decide
/-- The clause with events unmasked is met where the environment's free choice is no event. -/
theorem witness_ReservedPhaseIsRefused :
    14 ≤ { base with ph := 14 }.ph.toNat ∧ { base with ph := 15 }.script = [] ∧ { base with ph := 15 }.ie = false ∧
    { base with ph := 15, script := [.sched (schedWord 0 15 3)] }.script = [.sched (schedWord 0 15 3)] := by decide
theorem witness_IllFormedScheduleIsRefused :
    wellFormed .calinit = true ∧ phaseCode .calinit = some 1 ∧ base.ph ≠ 1 ∧ base.ie = false ∧
    wellFormed (.sample 1024) = true ∧ phaseCode (.sample 1024) = some { base with ph := 4 }.ph ∧
    operandsFit base.par (.sample 1024) = false := by decide
theorem witness_StepIsRefusedOnlyForACause :
    step { base with ph := 14 } = .refused (.undecodable .reservedPhase) ∧
    step { base with script := [.sched 0x300000] } = .refused (.undecodable .reservedKind) ∧
    step { base with script := [.sched 0x100010] } = .refused .eventMasked ∧
    step { base with script := [.sched 0x010000] } = .refused .phaseMismatch ∧
    step { base with ph := 4, script := [.sched 0x040400] } = .refused .operandTooWide := ⟨rfl, rfl, rfl, rfl, rfl⟩
theorem witness_FetchWordRunsTheTableRow :
    decodeTableWord 8 4 = some (.sample 0) ∧ decodeTableWord 8 0x10 = some (.edge 0x10) ∧
    decodeTableWord 16 0x1FF = some (.drvErr 0xFF) ∧ decodeTableWord 24 0x028000 = some (.calsmp none) ∧
    operandsFit base.par (.sample 0) = true ∧ operandsFit base.par (.calsmp none) = true := by decide
theorem witness_DecodeOfEncodeIsTheOperation :
    wellFormed (.drvErr 2) = true ∧ wellFormed (.sample 65535) = true ∧ wellFormed (.calsmp (some 32767)) = true := by
  decide
theorem witness_EncodeOfDecodeIsTheWord :
    decode (.sched 0x0403FF) = .ok (.run (.sample 1023)) ∧ (∀ pin, Stimulus.sched 0x0403FF ≠ .evt pin) :=
  ⟨by decide, by intro pin h; cases h⟩
theorem witness_FlagsToggleIndependently :
    running.ie = true ∧ exec (.edge 0x10) running = .next (running.takeEvent (edgeBody 0x10)) ∧
    running.hist.getLsbD running.par.swBit = { running with hist := 0x20 }.hist.getLsbD running.par.swBit ∧
    running.hist.getLsbD running.par.dirBit = { running with hist := 0x10 }.hist.getLsbD running.par.dirBit :=
  ⟨by decide, rfl, by decide, by decide⟩
theorem witness_EventWithoutChangeIsANoop :
    running.ie = true ∧ (0x00 : Byte) = running.hist ∧
    (0xCF : Byte).getLsbD running.par.swBit = running.hist.getLsbD running.par.swBit ∧
    (0xCF : Byte).getLsbD running.par.dirBit = running.hist.getLsbD running.par.dirBit := by decide
/-- Snapshots that press the switch button, the direction button, and both. -/
theorem witness_PressAndReleaseFold :
    running.ie = true ∧ (0x10 : Byte).getLsbD running.par.swBit ≠ running.hist.getLsbD running.par.swBit ∧
    (0x10 : Byte).getLsbD running.par.dirBit = running.hist.getLsbD running.par.dirBit ∧
    (0x20 : Byte).getLsbD running.par.swBit = running.hist.getLsbD running.par.swBit ∧
    (0x20 : Byte).getLsbD running.par.dirBit ≠ running.hist.getLsbD running.par.dirBit ∧
    (0x30 : Byte).getLsbD running.par.swBit ≠ running.hist.getLsbD running.par.swBit ∧
    (0x30 : Byte).getLsbD running.par.dirBit ≠ running.hist.getLsbD running.par.dirBit := by decide
theorem witness_EventSavesAndRestoresNothing :
    running.ie = true ∧ exec (.edge 0x30) running = .next (running.takeEvent (edgeBody 0x30)) := ⟨by decide, rfl⟩
theorem witness_EventCommutesWithQuietPhases :
    running.ie = true ∧ running.dirL = 0x00 ∧ { running with dirL := 1 }.dirL = 0x01 := by decide
theorem witness_EachRegisterHasItsWriters :
    exec .rdsw running = .next ((running.setSwL 1).goTo 8) ∧ Instr.rdsw ≠ .mapPhase ∧ phaseCode (.edge 0x10) = none :=
  ⟨rfl, by decide, by decide⟩
theorem witness_HistoriesOnlyGrow : exec .offrpt base = .next ((base.emit ⟨.stOff, 0, 0⟩).goTo 13) := rfl
theorem witness_ToggleIsSeenAtTheNextRead :
    running.ie = true ∧ (∀ i ∈ [Instr.drive, .pwmwr, .sleep], ∀ c, i ≠ .edge c) ∧
    (0x30 : Byte).getLsbD running.par.swBit ≠ running.hist.getLsbD running.par.swBit ∧
    (0x30 : Byte).getLsbD running.par.dirBit ≠ running.hist.getLsbD running.par.dirBit := by
  refine ⟨by decide, ?_, by decide, by decide⟩
  simp
theorem witness_DegenerateRangeMapsToLow :
    vectorPar.wf = true ∧ 65535 < 2 ^ vectorPar.wOcr ∧ base.par.wf = true ∧ base.calLo = base.calHi := by decide
/-- The widest source range and the ends of the destination range, rising and falling. -/
theorem witness_MapIsMonotonicWithExactEnds :
    vectorPar.wf = true ∧ 0 < 1023 ∧ 1023 < 2 ^ vectorPar.wAdc ∧ 0 < 2 ^ vectorPar.wOcr ∧ 65535 < 2 ^ vectorPar.wOcr ∧
    50 ≤ 1023 ∧ 0 ≤ 65535 := by decide
/-- A value at each end of the source range and one just beyond each, with a slope that shows it beyond. -/
theorem witness_MapDoesNotClamp :
    vectorPar.wf = true ∧ 5 < 10 ∧ 10 < 2 ^ vectorPar.wAdc ∧ 11 < 2 ^ vectorPar.wAdc ∧ 0 ≤ 65535 ∧
    65535 < 2 ^ vectorPar.wOcr ∧ 4 < 5 ∧ 10 < 11 ∧ 10 - 5 ≤ (5 - 4) * (65535 - 0) ∧ 10 - 5 ≤ (11 - 10) * (65535 - 0) := by
  decide
/-- The extremes of R146: the largest difference of samples and of duties, with the smallest divisor, negative. -/
theorem witness_MapperNeverOverflows :
    vectorPar.wf = true ∧ operandsFit vectorPar (.mapFn 0 1023 1022 65535 0) = true ∧
    operandsFit vectorPar (.mapFn 0 7 7 65535 0) = true := by decide
theorem witness_ActuatorKeepsTheDutyDomain :
    vectorPar.wf = true ∧ ((min vectorPar.outLo vectorPar.outHi : Nat) : Int) ≤ 39999 ∧
    (39999 : Int) ≤ ((max vectorPar.outLo vectorPar.outHi : Nat) : Int) ∧
    Params.wf { vectorPar with actClamp := true } = true := by decide
theorem witness_CalibrationFindsTheExtremes :
    { base with ph := 1, script := encode .calinit :: calibrationScript [400, 350] ++ [] }.ph = 1 ∧
    (∀ v ∈ [400, 350], v < 2 ^ base.par.wAdc ∧ v < 2 ^ 15) ∧ [400, 350] ≠ [] ∧ { base with ph := 1, script := encode .calinit :: calibrationScript [] ++ [] }.script =
      encode .calinit :: calibrationScript [] ++ [] := by decide
theorem witness_CalibrationIsUninterruptible :
    { calibrating with script := [.sched 0x020190] }.blockNext = true ∧
    { calibrating with script := [.sched 0x020190] }.resetNext = false ∧ calibrating.ph.toNat ≤ 3 ∧
    (after (step { calibrating with script := [.sched 0x020190] })).isSome = true ∧
    { calibrating with script := [.sched 0x020190] }.Inv := by
  exact ⟨by decide, by decide, by decide, by decide, inv_script calibrating_inv _⟩
theorem witness_RangeIsImmutableInTheLoop :
    { running with script := [.sched 0x090000] }.resetNext = false ∧ 4 ≤ running.ph.toNat ∧
    (after (step { running with script := [.sched 0x090000] })).isSome = true ∧
    { running with script := [.sched 0x090000] }.Inv := by
  exact ⟨by decide, by decide, by decide, inv_script running_inv _⟩
theorem witness_SuccessorTableHolds :
    phaseCode .drive = some running.ph ∧ exec .drive running = .next ((running.setDout 0b10).goTo 10) := ⟨by decide, rfl⟩
theorem witness_DriveDecisionHasNoMemory :
    running.par = { running with dout := 0b01 }.par ∧ flagLegal running.dir ∧ running.switch ≠ 0x00 ∧
    flagLegal base.dir ∧ base.switch = 0x00 := by
  refine ⟨by decide, .inl rfl, by decide, .inl rfl, rfl⟩
theorem witness_FlagReadsAreNotOneSnapshot : running.ie = true := rfl
theorem witness_ResetStateIsGood : vectorPar.wf = true := by decide
theorem witness_EveryStepKeepsTheInvariant :
    { running with script := [.sched 0x090000] }.Inv ∧
    (after (step { running with script := [.sched 0x090000] })).isSome = true :=
  ⟨witness_RangeIsImmutableInTheLoop.2.2.2, witness_RangeIsImmutableInTheLoop.2.2.1⟩
/-- A step of `DRIVE` from a trace that already holds the record, and a reset. -/
theorem witness_DirectionErrorIsNeverReported :
    { running with stat := [⟨.stDirerr, 2, 0⟩], script := [.sched 0x090000] }.Inv ∧
    { running with stat := [⟨.stDirerr, 2, 0⟩], script := [.sched 0x090000] }.blockNext = true ∧
    (after (step { running with stat := [⟨.stDirerr, 2, 0⟩], script := [.sched 0x090000] })).map (·.stat)
      = some [⟨.stDirerr, 2, 0⟩] ∧
    { running with script := [.sched 0x200000] }.resetNext = true := by
  have h := running_inv
  exact ⟨⟨h.1, ⟨h.2.1, h.2.2, h.2.3, h.2.4, h.2.5, h.2.6⟩, h.3, h.4, h.5, h.6, h.7, h.8, h.9, h.10, h.11⟩, by decide,
    by decide, by decide⟩
theorem witness_TheLoopNeverHalts : running.Inv ∧ running.script = [] := ⟨running_inv, rfl⟩
theorem witness_UnwrittenRegistersAreNotRead :
    AgreeOnWritten base { base with sample := 7, calv := 7, swL := 1 } ∧ base.blockNext = true ∧
    (after (step base)).isSome = true ∧ base.ocr = { base with sample := 7, calv := 7, swL := 1 }.ocr := by
  refine ⟨?_, by decide, by decide, rfl⟩
  constructor <;> simp [base, State.resetWith]
theorem witness_PowerUpContentsNeverShow :
    (∀ st ∈ [Stimulus.sched 0x000000, .evt 0x10], stimulusOfBlock st = true) ∧
    Sys2Proof.core.run 1 { State.resetWith vectorPar with script := [.sched 0x000000, .evt 0x10], tick := 0 } =
      .next (((({ base with script := [.evt 0x10] } : State).issue .initAdc).issue .initPwm).goTo 1) :=
  ⟨by decide, rfl⟩

end Sys2Proof.Tests
end

section
/-! SUPPORT. The invariant `State.Inv`: one rule for each operation over the state that says when it keeps the invariant,
from them the invariant along every phase, event, operation on wires driven alone and reset, and so along every step. -/

namespace Sys2Proof.Machine

/-! ## Reset and the environment -/

/-- The invariant does not speak of the environment. -/
theorem State.Inv.environment {s : State} (h : s.Inv) (script : List Stimulus) (tick : Nat) :
    { s with script := script, tick := tick }.Inv :=
  { h with fits := { h.fits with } }

/-- The reset state under any parameters R4 admits is good. -/
theorem resetWith_inv {p : Params} (hp : p.wf = true) : (State.resetWith p).Inv where
  parWf := hp
  fits := resetWith_fits p
  phaseLegal := by simp [State.resetWith]
  maskedUntilLoop := rfl
  switchLegal := .inl rfl
  dirLegal := .inl rfl
  dirLatchLegal _ := .inl rfl
  doutLegal := by simp [State.resetWith]
  rangeLegal _ := .inl le_rfl
  enabledPath := by simp [State.resetWith]
  disabledPath _ := rfl

/-- Power-up under parameters R4 admits ends in a good state (R250). -/
theorem powerUp_inv {s : State} (hp : s.par.wf = true) : s.powerUp.Inv :=
  (resetWith_inv hp).environment s.script s.tick

/-! ## Register writes and appends -/

section writes

variable {s : State} (h : s.Inv)
include h

theorem State.Inv.emit (r : StatusRecord) : (s.emit r).Inv := { h with fits := { h.fits with } }

theorem State.Inv.emitIf (c : Bool) (r : StatusRecord) : (s.emitIf c r).Inv := by
  cases c
  · exact h
  · exact h.emit r

theorem State.Inv.issue (q : Request) : (s.issue q).Inv := { h with fits := { h.fits with } }

theorem State.Inv.setSample {v : Nat} (hv : v < 2 ^ s.par.wAdc) : (s.setSample v).Inv :=
  { h with fits := { h.fits with sample := hv } }

theorem State.Inv.setCalv {v : Int} (hv : inSigned s.par.wInt v) : (s.setCalv v).Inv :=
  { h with fits := { h.fits with calv := hv } }

theorem State.Inv.setMapOut {v : Int} (hv : inSigned s.par.wInt v) : (s.setMapOut v).Inv :=
  { h with fits := { h.fits with mapOut := hv } }

theorem State.Inv.setOcr {v : Nat} (hv : v < 2 ^ s.par.wOcr) : (s.setOcr v).Inv :=
  { h with fits := { h.fits with ocr := hv } }

theorem State.Inv.setDout {v : BitVec 2} (hv : v ≠ 0b11) : (s.setDout v).Inv :=
  { h with fits := { h.fits with }, doutLegal := hv }

theorem State.Inv.setDetector {sw dir : Byte} (hist : Byte) (hsw : flagLegal sw) (hdir : flagLegal dir) :
    (s.setDetector hist sw dir).Inv :=
  { h with fits := { h.fits with }, switchLegal := hsw, dirLegal := hdir }

/-- `IE` may be written with the value it has. -/
theorem State.Inv.setIe {b : Bool} (hb : s.ie = b) : (s.setIe b).Inv :=
  { h with fits := { h.fits with }, maskedUntilLoop := hb ▸ h.maskedUntilLoop }

/-- The bounds may be written with an ordered range, and before `CALSMP` with any. -/
theorem State.Inv.setRange {lo hi : Nat} (hlo : lo < 2 ^ s.par.wAdc) (hhi : hi < 2 ^ s.par.wAdc)
    (hr : 2 ≤ s.ph.toNat → lo ≤ hi) : (s.setRange lo hi).Inv :=
  { h with fits := { h.fits with calLo := hlo, calHi := hhi }, rangeLegal := fun hp => .inl (hr hp) }

/-- `SW_L` may be written in the phase that chooses the path. -/
theorem State.Inv.setSwL (hp : s.ph = 7) (v : Byte) : (s.setSwL v).Inv :=
  { h with
    fits := { h.fits with }
    enabledPath := by simp [hp]
    disabledPath := by simp [hp] }

/-- `DIR_L` may be written with a legal direction. -/
theorem State.Inv.setDirL {v : Byte} (hv : flagLegal v) : (s.setDirL v).Inv :=
  { h with fits := { h.fits with }, dirLatchLegal := fun _ => hv }

/-! ## Moves of the sequencer -/

/-- A move within the part of the life of the block that `IE` tells: what the new phase's clauses ask for. -/
theorem State.Inv.goTo {c p : PhaseCode} (hc : s.ph = c) (hp : p.toNat < 14 ∧ (4 ≤ p.toNat ↔ 4 ≤ c.toNat))
    (hrange : 2 ≤ p.toNat → s.calLo ≤ s.calHi ∨ (s.calLo = rawTop s.par ∧ s.calHi = 0))
    (hdir : p = 9 → flagLegal s.dirL) (hen : p = 8 ∨ p = 9 ∨ p = 10 → s.swL ≠ 0x00)
    (hdis : p = 11 ∨ p = 12 → s.swL = 0x00) : (s.goTo p).Inv where
  parWf := h.parWf
  fits := { h.fits with }
  phaseLegal := hp.1
  maskedUntilLoop := by
    subst hc
    exact h.maskedUntilLoop.trans (decide_eq_decide.mpr hp.2.symm)
  switchLegal := h.switchLegal
  dirLegal := h.dirLegal
  dirLatchLegal := hdir
  doutLegal := h.doutLegal
  rangeLegal := hrange
  enabledPath := hen
  disabledPath := hdis

/-- A move to a phase before or after the two paths asks nothing of the latches. -/
theorem State.Inv.goTo_offPaths {c p : PhaseCode} (hc : s.ph = c)
    (hp : (p.toNat < 8 ∨ p.toNat = 13) ∧ (4 ≤ p.toNat ↔ 4 ≤ c.toNat) ∧ (2 ≤ p.toNat → 2 ≤ c.toNat)) :
    (s.goTo p).Inv := by
  obtain ⟨hoff, hie, hcal⟩ := hp
  have hne (q : PhaseCode) (hq : 8 ≤ q.toNat ∧ q.toNat < 13) : p ≠ q := by rintro rfl; omega
  subst hc
  refine h.goTo rfl ⟨by omega, hie⟩ (fun hp => h.rangeLegal (hcal hp)) ?_ ?_ ?_
  · exact fun hp => absurd hp (hne 9 (by decide))
  · rintro (hp | hp | hp)
    exacts [absurd hp (hne 8 (by decide)), absurd hp (hne 9 (by decide)), absurd hp (hne 10 (by decide))]
  · rintro (hp | hp)
    exacts [absurd hp (hne 11 (by decide)), absurd hp (hne 12 (by decide))]

/-- A move along the enabled path. -/
theorem State.Inv.goTo_enabled {c p : PhaseCode} (hc : s.ph = c)
    (hp : 4 ≤ c.toNat ∧ (p = 8 ∨ p = 9 ∨ p = 10)) (hdir : p = 9 → flagLegal s.dirL) (hsw : s.swL ≠ 0x00) :
    (s.goTo p).Inv := by
  obtain ⟨hloop, hp⟩ := hp
  have hrange := h.rangeLegal (by rw [hc]; omega)
  rcases hp with rfl | rfl | rfl <;>
    exact h.goTo hc (by simpa using hloop) (fun _ => hrange) hdir (fun _ => hsw) (by simp)

/-- A move along the disabled path. -/
theorem State.Inv.goTo_disabled {c p : PhaseCode} (hc : s.ph = c) (hp : 4 ≤ c.toNat ∧ (p = 11 ∨ p = 12))
    (hsw : s.swL = 0x00) : (s.goTo p).Inv := by
  obtain ⟨hloop, hp⟩ := hp
  have hrange := h.rangeLegal (by rw [hc]; omega)
  rcases hp with rfl | rfl <;>
    exact h.goTo hc (by simpa using hloop) (fun _ => hrange) (by simp) (by simp) (fun _ => hsw)

/-- Unmasking events and entering the loop go together (R163). -/
theorem State.Inv.enterLoop (hp : 2 ≤ s.ph.toNat) : ((s.setIe true).goTo 4).Inv where
  parWf := h.parWf
  fits := { h.fits with }
  phaseLegal := by simp
  maskedUntilLoop := rfl
  switchLegal := h.switchLegal
  dirLegal := h.dirLegal
  dirLatchLegal := by simp
  doutLegal := h.doutLegal
  rangeLegal _ := h.rangeLegal hp
  enabledPath := by simp
  disabledPath := by simp

end writes

/-! ## The operations -/

/-- Toggling bit 0 keeps a flag 0 or 1 (R31). -/
theorem flagLegal_toggleIf {f : Byte} (hf : flagLegal f) (t : Bool) : flagLegal (toggleIf t f) := by
  cases t
  · exact hf
  · rcases hf with rfl | rfl
    · exact .inr rfl
    · exact .inl rfl

/-- The handler of an event keeps the invariant. -/
theorem edgeBody_inv {s : State} (h : s.Inv) (cur : Byte) : (edgeBody cur s).Inv :=
  ((h.setDetector cur (flagLegal_toggleIf h.switchLegal _) (flagLegal_toggleIf h.dirLegal _)).emitIf _ _).emitIf _ _

/-- An event keeps the invariant, taken or masked. -/
theorem exec_edge_inv {s t : State} (h : s.Inv) {cur : Byte} (he : exec (.edge cur) s = .next t) : t.Inv := by
  cases he
  cases hie : s.ie
  · rw [State.takeEvent_masked hie]; exact h
  · rw [State.takeEvent_enabled hie]; exact edgeBody_inv h cur

/-- Wires driven alone keep the invariant, in every phase (log entry 10). -/
theorem exec_unit_inv {i : Instr} {s t : State} (h : s.Inv) (hi : unitOperation i) (he : exec i s = .next t) :
    t.Inv := by
  have hocr := act_lt h.parWf s.calv
  rcases hi with ⟨v, a, b, c, d, rfl⟩ | ⟨d, rfl⟩ | rfl | rfl | ⟨d, rfl⟩ <;> cases he
  · exact h.setMapOut (mapUnit_inSigned h.parWf _ _ _ _ _)
  · exact (h.setDout (by decide)).emit _
  · exact (h.setDout (by decide)).setOcr hocr
  · exact (h.setDout (by decide)).setOcr hocr
  · exact (h.emit _).setOcr hocr

/-- `RDSW` enters the path that the value it latches chooses (R185). -/
theorem exec_rdsw_inv {s t : State} (h : s.Inv) (hph : s.ph = 7) (he : exec .rdsw s = .next t) : t.Inv := by
  cases he
  have hlatch := h.setSwL hph s.switch
  cases hen : enabled s.switch
  · exact hlatch.goTo_disabled hph (by decide) (by simpa [enabled] using hen)
  · exact hlatch.goTo_enabled hph (by decide) (by simp) ((enabled_iff _).mp hen)

/-- `DRIVE` stays on the enabled path and writes one of the two driving pairs, or no pair (R187, R191). -/
theorem exec_drive_inv {s t : State} (h : s.Inv) (hph : s.ph = 9) (he : exec .drive s = .next t) : t.Inv := by
  have hmove {u : State} (hu : u.Inv) (hp : u.ph = s.ph) (hl : u.swL = s.swL) : (u.goTo 10).Inv :=
    hu.goTo_enabled (hp.trans hph) (by decide) (by simp) (hl ▸ h.enabledPath (.inr (.inl hph)))
  simp only [exec, execDrive] at he
  split at he
  · cases he; exact hmove (h.setDout (by decide)) rfl rfl
  · split at he <;> cases he
    · exact hmove (h.setDout (by decide)) rfl rfl
    · exact hmove (h.emit _) rfl rfl

/-- A sample widens the range to one that is ordered and fits (R162). -/
theorem exec_calsmp_inv {s t : State} (h : s.Inv) (hph : s.ph = 2) {draw : Option Nat}
    (he : exec (.calsmp draw) s = .next t) : t.Inv := by
  cases draw with
  | none => cases he; exact h.goTo_offPaths hph (by decide)
  | some v =>
    cases he
    have hlo : min s.calLo (truncTo s.par.wAdc v) < 2 ^ s.par.wAdc := (min_le_left _ _).trans_lt h.fits.calLo
    have hhi : max s.calHi (truncTo s.par.wAdc v) < 2 ^ s.par.wAdc := max_lt h.fits.calHi (truncTo_lt _ _)
    have hle := (min_le_right s.calLo (truncTo s.par.wAdc v)).trans (le_max_right s.calHi _)
    exact (h.setRange hlo hhi fun _ => hle).goTo_offPaths hph (by decide)

/-- `CALINIT` masks events, which are masked already, and leaves the initial range (R161). -/
theorem exec_calinit_inv {s t : State} (h : s.Inv) (hph : s.ph = 1) (he : exec .calinit s = .next t) : t.Inv := by
  cases he
  have hie : s.ie = false := by simp [h.maskedUntilLoop, hph]
  have htop : rawTop s.par < 2 ^ s.par.wAdc := Nat.sub_lt (Nat.two_pow_pos _) Nat.one_pos
  have hwrite := (h.setIe hie).setRange htop (Nat.two_pow_pos _) (by simp [hph])
  exact hwrite.goTo hph (by decide) (fun _ => .inr ⟨rfl, rfl⟩) (by simp) (by simp) (by simp)

/-- The phase `PH` names keeps the invariant, and moves `PH` to a phase whose clauses hold. -/
theorem exec_phase_inv {i : Instr} {s t : State} (h : s.Inv) (hph : phaseCode i = some s.ph)
    (he : exec i s = .next t) : t.Inv := by
  cases i
  case edge | mapFn | drvOff | drvFwd | drvRev | drvErr => cases hph
  all_goals replace hph := (Option.some.inj hph).symm
  case calinit => exact exec_calinit_inv h hph he
  case calsmp draw => exact exec_calsmp_inv h hph he
  case rdsw => exact exec_rdsw_inv h hph he
  case drive => exact exec_drive_inv h hph he
  all_goals cases he
  case setup => exact ((h.issue _).issue _).goTo_offPaths hph (by decide)
  case calend => exact h.enterLoop (by simp [hph])
  case sample adc => exact (h.setSample (truncTo_lt _ _)).goTo_offPaths hph (by decide)
  case mapPhase => exact (h.setCalv (mapUnit_inSigned h.parWf _ _ _ _ _)).goTo_offPaths hph (by decide)
  case report => exact (h.emit _).goTo_offPaths hph (by decide)
  case rddir =>
    exact (h.setDirL h.dirLegal).goTo_enabled hph (by decide) (fun _ => h.dirLegal) (h.enabledPath (.inl hph))
  case pwmwr => exact (h.setOcr (act_lt h.parWf _)).goTo_offPaths hph (by decide)
  case offout => exact (h.setDout (by decide)).goTo_disabled hph (by decide) (h.disabledPath (.inl hph))
  case offrpt => exact (h.emit _).goTo_offPaths hph (by decide)
  case sleep => exact h.goTo_offPaths hph (by decide)

/-! ## Every step -/

/-- Settles O56: a step is the phase `PH` names, an event, wires driven alone, or reset, and each keeps the
invariant. -/
theorem everyStepKeepsTheInvariant : Obligations.EveryStepKeepsTheInvariant := by
  intro s t h hstep
  obtain ⟨s₁, henv, hdo⟩ := step_cases hstep
  obtain ⟨h₁, hph⟩ : s₁.Inv ∧ s₁.ph = s.ph := by
    rcases henv with ⟨-, rfl⟩ | ⟨st, rest, -, rfl⟩
    · exact ⟨h.environment s.script (s.tick + 1), rfl⟩
    · exact ⟨h.environment rest s.tick, rfl⟩
  rcases hdo with ⟨i, he, hi | ⟨cur, rfl⟩ | ⟨-, hunit⟩⟩ | ⟨-, rfl⟩
  · exact exec_phase_inv h₁ (hph ▸ hi) he
  · exact exec_edge_inv h₁ he
  · exact exec_unit_inv h₁ hunit he
  · exact powerUp_inv h₁.parWf

end Sys2Proof.Machine
end

section
/-! SUPPORT. What one operation writes and what it leaves: the branches of the operations that have some, the writers of
each register, port and history (10_state.md R30, R36), and what an operation appends to `STAT`. -/

namespace Sys2Proof.Machine

/-! ## The operations that branch -/

/-- What `DRIVE` does: one of the two driving pairs for a legal `DIR_L`, and otherwise a record alone (R187, R191). -/
theorem exec_drive_cases {s t : State} (he : exec .drive s = .next t) :
    (s.dirL = 0x00 ∧ t = (s.setDout 0b10).goTo 10) ∨ (s.dirL = 0x01 ∧ t = (s.setDout 0b01).goTo 10) ∨
      (¬ flagLegal s.dirL ∧ t = (s.emit ⟨.stDirerr, uval s.dirL, 0⟩).goTo 10) := by
  simp only [exec, execDrive] at he
  split at he
  · cases he; exact .inl ⟨‹_›, rfl⟩
  · split at he <;> cases he
    · exact .inr (.inl ⟨‹_›, rfl⟩)
    · rename_i h0 h1
      exact .inr (.inr ⟨not_or.mpr ⟨h0, h1⟩, rfl⟩)

/-- What `EDGE` does: nothing while `IE = 0`, its handler while `IE = 1` (R120, R230). -/
theorem exec_edge_cases {cur : Byte} {s t : State} (he : exec (.edge cur) s = .next t) :
    (s.ie = false ∧ t = s) ∨ (s.ie = true ∧ t = edgeBody cur s) := by
  cases he
  cases hie : s.ie
  · exact .inl ⟨rfl, State.takeEvent_masked hie _⟩
  · exact .inr ⟨rfl, State.takeEvent_enabled hie _⟩

/-! ## Writers -/

/-- Settles O39: the operations that branch write, on each branch, what the obligation names them for, and the others
have one effect each. -/
theorem eachRegisterHasItsWriters : Obligations.EachRegisterHasItsWriters := by
  intro i s t he
  cases i with
  | drive => rcases exec_drive_cases he with ⟨-, rfl⟩ | ⟨-, rfl⟩ | ⟨-, rfl⟩ <;> simp [phaseCode]
  | calsmp draw => cases draw <;> cases he <;> simp [phaseCode]
  | edge cur => rcases exec_edge_cases he with ⟨-, rfl⟩ | ⟨-, rfl⟩ <;> simp [edgeBody_eq]
  | _ => cases he; simp [phaseCode]

/-- Only `SETUP` issues requests (R98, R181). -/
theorem exec_req {i : Instr} {s t : State} (he : exec i s = .next t) (hi : i ≠ .setup) : t.req = s.req := by
  obtain ⟨-, -, -, -, -, -, -, -, -, hreq, -⟩ := eachRegisterHasItsWriters i s t he
  exact hreq hi

/-- No operation presents anything (log entry 6). -/
theorem exec_script {i : Instr} {s t : State} (he : exec i s = .next t) : t.script = s.script := by
  obtain ⟨-, -, -, -, -, -, -, -, -, -, -, -, -, hscript, -⟩ := eachRegisterHasItsWriters i s t he
  exact hscript

/-! ## The histories -/

/-- The handler of an event appends records of the two flags alone (R122). -/
theorem edgeBody_stat (cur : Byte) (s : State) :
    ∃ new, (edgeBody cur s).stat = s.stat ++ new ∧ ∀ r ∈ new, r.kind = .stSwitch ∨ r.kind = .stDir := by
  rw [edgeBody_eq]
  refine ⟨_, List.append_assoc _ _ _, fun r hr => ?_⟩
  rcases List.mem_append.mp hr with h | h
  · split at h <;> simp_all
  · split at h <;> simp_all

/-- What an operation appends to `STAT`: an `ST_DIRERR` comes from `DRIVE` with an illegal `DIR_L`, or from the row
`DRV_ERR` (R191). -/
theorem exec_stat {i : Instr} {s t : State} (he : exec i s = .next t) :
    ∃ new, t.stat = s.stat ++ new ∧
      ∀ r ∈ new, r.kind = .stDirerr → (i = .drive ∧ ¬ flagLegal s.dirL) ∨ ∃ d, i = .drvErr d := by
  cases i with
  | drive =>
    rcases exec_drive_cases he with ⟨-, rfl⟩ | ⟨-, rfl⟩ | ⟨hbad, rfl⟩
    · exact ⟨[], by simp⟩
    · exact ⟨[], by simp⟩
    · exact ⟨_, rfl, fun _ _ _ => .inl ⟨rfl, hbad⟩⟩
  | calsmp draw => cases draw <;> cases he <;> exact ⟨[], by simp⟩
  | edge cur =>
    rcases exec_edge_cases he with ⟨-, rfl⟩ | ⟨-, rfl⟩
    · exact ⟨[], by simp⟩
    · obtain ⟨new, hnew, hkind⟩ := edgeBody_stat cur s
      exact ⟨new, hnew, fun r hr hk => by have := hkind r hr; simp [hk] at this⟩
  | report | offrpt | drvOff => cases he; exact ⟨_, rfl, by simp⟩
  | drvErr d => cases he; exact ⟨_, rfl, fun _ _ _ => .inr ⟨d, rfl⟩⟩
  | _ => cases he; exact ⟨[], by simp⟩

/-- Settles O40: an operation appends to `STAT` what `exec_stat` says, and to `REQ` the two requests of `SETUP`. -/
theorem historiesOnlyGrow : Obligations.HistoriesOnlyGrow := by
  intro i s t he
  obtain ⟨new, hstat, -⟩ := exec_stat he
  refine ⟨⟨new, hstat.symm⟩, ?_⟩
  by_cases hi : i = .setup
  · subst hi; cases he
    exact ⟨[.initAdc, .initPwm], by simp⟩
  · rw [exec_req he hi]

end Sys2Proof.Machine
end

section
/-! SUPPORT. The reset state (10_state.md R39), and what a step of the block appends to `STAT` from a good state. -/

namespace Sys2Proof.Machine

/-- Settles O1: the values of R39 stand in the definition of the reset state. -/
theorem resetGivesSpecifiedValues : Obligations.ResetGivesSpecifiedValues :=
  fun _ => ⟨rfl, rfl, rfl, rfl, rfl, rfl, rfl, rfl, rfl⟩

/-- The direction input and the switch input of `State.reset` are two bits of the bank (R4, D4). -/
theorem dirBit_ne_swBit : Config.dirBit ≠ Config.swBit := by
  rw [Config.dirBit, ne_eq, Fin.ext_iff]
  split
  · exact Nat.ne_of_lt ‹_›
  · exact (Nat.lt_succ_of_le (not_lt.mp ‹_›)).ne'

/-- The parameters of `State.reset` meet the constraints of R4. -/
theorem instancePar_wf : Config.instancePar.wf = true :=
  decide_eq_true ⟨dirBit_ne_swBit.symm, by decide, Config.outLo.isLt, Config.outHi.isLt⟩

/-- Settles O55: `resetWith_inv`, for all parameters R4 admits, and for those of `State.reset`. -/
theorem resetStateIsGood : Obligations.ResetStateIsGood :=
  ⟨fun _ => resetWith_inv, resetWith_inv instancePar_wf⟩

/-- Settles O57: an `ST_DIRERR` would need the row `DRV_ERR`, which no step of the block is, or `DRIVE` with an illegal
`DIR_L`, which the invariant excludes where `PH` names `DRIVE`. -/
theorem directionErrorIsNeverReported : Obligations.DirectionErrorIsNeverReported := by
  intro s t h hb hstep
  obtain ⟨s₁, henv, hdo⟩ := step_cases hstep
  obtain ⟨hstat₁, hdirL₁⟩ : s₁.stat = s.stat ∧ s₁.dirL = s.dirL := by
    rcases henv with ⟨-, rfl⟩ | ⟨st, rest, -, rfl⟩ <;> exact ⟨rfl, rfl⟩
  rcases hdo with ⟨i, he, hi⟩ | ⟨hreset, rfl⟩
  · left
    obtain ⟨new, hstat, hdirerr⟩ := exec_stat he
    refine ⟨new, hstat₁ ▸ hstat, fun r hr hk => ?_⟩
    rcases hi with hph | ⟨cur, rfl⟩ | ⟨hunit, -⟩
    · rcases hdirerr r hr hk with ⟨rfl, hbad⟩ | ⟨d, rfl⟩
      · exact hbad (hdirL₁ ▸ h.dirLatchLegal (Option.some.inj hph).symm)
      · cases hph
    · rcases hdirerr r hr hk with ⟨hi, -⟩ | ⟨d, hi⟩ <;> cases hi
    · simp [hb] at hunit
  · exact .inr ⟨hreset, rfl⟩

end Sys2Proof.Machine
end

section
/-! SUPPORT. Two states that differ in registers not yet written (10_state.md R40): one rule for each operation over the
state that says when it keeps `AgreeOnWritten`, from them the two-state lemmas of an operation, of a step of the block and
of a run. -/

namespace Sys2Proof.Machine

/-- An outcome from `s'` is a next state that agrees with `t`, reached from `s`, and also in the compare register if that
agreed before: what O59 says of a step. -/
def AgreeAfter (s s' t : State) (o : Host.Outcome State Fault Refusal) : Prop :=
  ∃ t', o = .next t' ∧ AgreeOnWritten t t' ∧ (s.ocr = s'.ocr → t.ocr = t'.ocr)

theorem AgreeOnWritten.refl (s : State) : AgreeOnWritten s s := by constructor <;> simp

section agreement

variable {s s' : State} (h : AgreeOnWritten s s')
include h

/-! ## The environment -/

theorem AgreeOnWritten.consume (rest : List Stimulus) :
    AgreeOnWritten { s with script := rest } { s' with script := rest } := { h with script := rfl }

theorem AgreeOnWritten.countDraw : AgreeOnWritten { s with tick := s.tick + 1 } { s' with tick := s'.tick + 1 } :=
  { h with tick := congrArg (· + 1) h.tick }

/-- A stimulus is admitted in both states or in neither. -/
theorem AgreeOnWritten.admission_eq (st : Stimulus) (c : Command) : admission st c s = admission st c s' := by
  simp only [admission, h.ie, h.ph, h.par]

/-- Both states leave the environment the same free choice. -/
theorem AgreeOnWritten.freeInstr_eq : freeInstr s = freeInstr s' := by
  unfold freeInstr freeSample
  rw [h.ie, h.ph, h.par, h.tick]

/-- Reset leaves no difference at all (R39, log entry 4). -/
theorem AgreeOnWritten.powerUp_eq : s.powerUp = s'.powerUp := by
  simp only [State.powerUp, h.par, h.script, h.tick]

/-! ## Register writes and appends -/

theorem AgreeOnWritten.emit (r : StatusRecord) : AgreeOnWritten (s.emit r) (s'.emit r) :=
  { h with stat := congrArg (· ++ [r]) h.stat }

theorem AgreeOnWritten.emitIf (c : Bool) (r : StatusRecord) : AgreeOnWritten (s.emitIf c r) (s'.emitIf c r) := by
  cases c
  · exact h
  · exact h.emit r

theorem AgreeOnWritten.issue (q : Request) : AgreeOnWritten (s.issue q) (s'.issue q) :=
  { h with req := congrArg (· ++ [q]) h.req }

theorem AgreeOnWritten.setIe (b : Bool) : AgreeOnWritten (s.setIe b) (s'.setIe b) := { h with ie := rfl }

theorem AgreeOnWritten.setRange (lo hi : Nat) : AgreeOnWritten (s.setRange lo hi) (s'.setRange lo hi) :=
  { h with range := fun _ => ⟨rfl, rfl⟩ }

theorem AgreeOnWritten.setSample (v : Nat) : AgreeOnWritten (s.setSample v) (s'.setSample v) :=
  { h with sample := fun _ => rfl }

theorem AgreeOnWritten.setCalv (v : Int) : AgreeOnWritten (s.setCalv v) (s'.setCalv v) := { h with calv := fun _ => rfl }

theorem AgreeOnWritten.setSwL (v v' : Byte) : AgreeOnWritten (s.setSwL v) (s'.setSwL v') := { h with }

theorem AgreeOnWritten.setDirL (v : Byte) : AgreeOnWritten (s.setDirL v) (s'.setDirL v) := { h with dirL := fun _ => rfl }

theorem AgreeOnWritten.setDout (v : BitVec 2) : AgreeOnWritten (s.setDout v) (s'.setDout v) := { h with dout := rfl }

theorem AgreeOnWritten.setOcr (v v' : Nat) : AgreeOnWritten (s.setOcr v) (s'.setOcr v') := { h with }

theorem AgreeOnWritten.setDetector (hist sw dir : Byte) :
    AgreeOnWritten (s.setDetector hist sw dir) (s'.setDetector hist sw dir) :=
  { h with hist := rfl, switch := rfl, dir := rfl }

/-! ## Moves of the sequencer -/

/-- A move to a phase before which everything it may read is written. -/
theorem AgreeOnWritten.goTo {p : PhaseCode} (hrange : 2 ≤ p.toNat → s.calLo = s'.calLo ∧ s.calHi = s'.calHi)
    (hsample : p = 5 ∨ p = 6 → s.sample = s'.sample) (hcalv : 6 ≤ p.toNat ∧ p.toNat ≤ 10 → s.calv = s'.calv)
    (hdirL : p = 9 → s.dirL = s'.dirL) : AgreeOnWritten (s.goTo p) (s'.goTo p) :=
  { h with ph := rfl, range := hrange, sample := hsample, calv := hcalv, dirL := hdirL }

/-- A move to a phase that reads no more than the one before it. -/
theorem AgreeOnWritten.goTo_keeping {c p : PhaseCode} (hc : s.ph = c)
    (hp : (2 ≤ p.toNat → 2 ≤ c.toNat) ∧ (p = 5 ∨ p = 6 → c = 5 ∨ c = 6) ∧
      (6 ≤ p.toNat ∧ p.toNat ≤ 10 → 6 ≤ c.toNat ∧ c.toNat ≤ 10) ∧ (p = 9 → c = 9)) :
    AgreeOnWritten (s.goTo p) (s'.goTo p) := by
  subst hc
  obtain ⟨hrange, hsample, hcalv, hdirL⟩ := hp
  exact h.goTo (h.range ∘ hrange) (h.sample ∘ hsample) (h.calv ∘ hcalv) (h.dirL ∘ hdirL)

/-! ## The operations of the block -/

/-- The handler of an event reads the two flags, the history and the parameters alone (R122). -/
theorem edgeBody_agree (cur : Byte) : AgreeOnWritten (edgeBody cur s) (edgeBody cur s') := by
  unfold edgeBody
  rw [h.par, h.hist, h.switch, h.dir]
  exact ((h.setDetector _ _ _).emitIf _ _).emitIf _ _

/-- An event is taken in both states or in neither, and leaves the compare register. -/
theorem exec_edge_agree {t : State} {cur : Byte} (he : exec (.edge cur) s = .next t) :
    AgreeAfter s s' t (exec (.edge cur) s') := by
  refine ⟨_, rfl, ?_⟩
  rcases exec_edge_cases he with ⟨hie, rfl⟩ | ⟨hie, rfl⟩
  · rw [State.takeEvent_masked (h.ie ▸ hie)]
    exact ⟨h, id⟩
  · rw [State.takeEvent_enabled (h.ie ▸ hie)]
    exact ⟨edgeBody_agree h cur, by simp [edgeBody_eq]⟩

/-- `DRIVE` reads `DIR_L`, which `RDDIR` has written (R180). -/
theorem exec_drive_agree {t : State} (hph : s.ph = 9) (he : exec .drive s = .next t) :
    AgreeAfter s s' t (exec .drive s') := by
  have hmove {u u' : State} (hu : AgreeOnWritten u u') (hp : u.ph = s.ph) : AgreeOnWritten (u.goTo 10) (u'.goTo 10) :=
    hu.goTo_keeping (hp.trans hph) (by decide)
  have hdirL := h.dirL hph
  simp only [exec, execDrive, ← hdirL]
  rcases exec_drive_cases he with ⟨hd, rfl⟩ | ⟨hd, rfl⟩ | ⟨hd, rfl⟩
  · rw [if_pos hd]
    exact ⟨_, rfl, hmove (h.setDout _) rfl, id⟩
  · rw [if_neg (by simp [hd]), if_pos hd]
    exact ⟨_, rfl, hmove (h.setDout _) rfl, id⟩
  · obtain ⟨h0, h1⟩ := not_or.mp hd
    rw [if_neg h0, if_neg h1]
    exact ⟨_, rfl, hmove (h.emit _) rfl, id⟩

/-- The phase `PH` names reads no register that is not yet written (R40). -/
theorem exec_phase_agree {i : Instr} {t : State} (hph : phaseCode i = some s.ph) (he : exec i s = .next t) :
    AgreeAfter s s' t (exec i s') := by
  cases i
  case edge | mapFn | drvOff | drvFwd | drvRev | drvErr => cases hph
  all_goals replace hph := (Option.some.inj hph).symm
  case drive => exact exec_drive_agree h hph he
  case calsmp draw =>
    obtain ⟨hlo, hhi⟩ := h.range (by simp [hph])
    cases draw <;> cases he <;> refine ⟨_, rfl, ?_, id⟩
    · exact h.goTo_keeping hph (by decide)
    · rw [h.par, hlo, hhi]
      exact (h.setRange _ _).goTo_keeping hph (by decide)
  case rdsw =>
    cases he
    refine ⟨_, rfl, ?_, id⟩
    rw [h.switch]
    cases enabled s'.switch <;> exact (h.setSwL _ _).goTo_keeping hph (by decide)
  case pwmwr =>
    cases he
    have hcalv := h.calv (by simp [hph])
    exact ⟨_, rfl, (h.setOcr _ _).goTo_keeping hph (by decide), fun _ => congrArg₂ act h.par hcalv⟩
  all_goals cases he; refine ⟨_, rfl, ?_, id⟩
  case setup => exact ((h.issue _).issue _).goTo_keeping hph (by decide)
  case calinit =>
    rw [h.par]
    exact ((h.setIe _).setRange _ _).goTo (fun _ => ⟨rfl, rfl⟩) (by simp) (by simp) (by simp)
  case calend => exact (h.setIe _).goTo_keeping hph (by decide)
  case sample adc =>
    rw [h.par]
    exact (h.setSample _).goTo (fun _ => h.range (by simp [hph])) (fun _ => rfl) (by simp) (by simp)
  case mapPhase =>
    have hsample := h.sample (.inl hph)
    obtain ⟨hlo, hhi⟩ := h.range (by simp [hph])
    rw [h.par, hsample, hlo, hhi]
    exact (h.setCalv _).goTo (fun _ => ⟨hlo, hhi⟩) (fun _ => hsample) (fun _ => rfl) (by simp)
  case report =>
    rw [h.sample (.inr hph), h.calv (by simp [hph])]
    exact (h.emit _).goTo_keeping hph (by decide)
  case rddir =>
    rw [h.dir]
    exact (h.setDirL _).goTo (fun _ => h.range (by simp [hph])) (by simp) (fun _ => h.calv (by simp [hph])) fun _ => rfl
  case offout => exact (h.setDout _).goTo_keeping hph (by decide)
  case offrpt => exact (h.emit _).goTo_keeping hph (by decide)
  case sleep => exact h.goTo_keeping hph (by decide)

/-- What a step of the block runs, a phase or an event, does not tell the two states apart. -/
theorem exec_agree {i : Instr} {t : State} (hi : phaseCode i = some s.ph ∨ ∃ cur, i = .edge cur)
    (he : exec i s = .next t) : AgreeAfter s s' t (exec i s') := by
  rcases hi with hph | ⟨cur, rfl⟩
  · exact exec_phase_agree h hph he
  · exact exec_edge_agree h he

end agreement

/-! ## Steps and runs -/

/-- What a step to a next state fetched: the environment's free choice, or the admitted command that heads the
script. -/
theorem step_fetched {s t : State} (h : step s = .next t) :
    (∃ i, s.script = [] ∧ freeInstr s = .ok i ∧ exec i { s with tick := s.tick + 1 } = .next t) ∨
    ∃ st rest c, s.script = st :: rest ∧ decode st = .ok c ∧ admission st c s = .ok () ∧
      runCommand exec c { s with script := rest } = .next t := by
  cases hs : s.script with
  | nil =>
    cases hi : freeInstr s with
    | error e => simp [step, fetch, hs, hi] at h
    | ok i =>
      rw [step_free hs hi, hs] at h
      exact .inl ⟨i, rfl, rfl, h⟩
  | cons st rest =>
    cases hd : decode st with
    | error e => simp [step_undecodable hs hd] at h
    | ok c =>
      cases ha : admission st c s with
      | error r => simp [step_not_admitted hs hd ha] at h
      | ok _ => exact .inr ⟨st, rest, c, rfl, hd, ha, step_of_script hs hd ha ▸ h⟩

/-- An admitted operation of the block's own stimuli is the phase `PH` names or an event. -/
theorem admitted_of_block {st : Stimulus} {i : Instr} {s : State} (hb : stimulusOfBlock st = true)
    (hd : decode st = .ok (.run i)) (ha : admission st (.run i) s = .ok ()) :
    phaseCode i = some s.ph ∨ ∃ cur, i = .edge cur := by
  cases st with
  | sched w =>
    rcases admit_ok ha with ⟨_, cur, -, hc, -⟩ | ⟨_, j, -, hc, hp⟩ | hc | hn
    · cases hc; exact .inr ⟨cur, rfl⟩
    · cases hc; exact .inl hp
    · cases hc
    · exact absurd rfl (hn w)
  | evt pin => cases hd; exact .inr ⟨pin, rfl⟩
  | mux sel => cases hb
  | func => cases hb

/-- Settles O59: both states fetch the same command, which runs alike in both (`exec_agree`), or is the reset, which
leaves no difference. -/
theorem unwrittenRegistersAreNotRead : Obligations.UnwrittenRegistersAreNotRead := by
  intro s s' t h hb hstep
  rcases step_fetched hstep with ⟨i, hs, hi, he⟩ | ⟨st, rest, c, hs, hd, ha, he⟩
  · have hop : phaseCode i = some s.ph ∨ ∃ cur, i = .edge cur :=
      (freeInstr_ok hi).symm.imp_right fun ⟨cur, hc, _⟩ => ⟨cur, hc⟩
    rw [step_free (h.script ▸ hs) (h.freeInstr_eq ▸ hi)]
    exact exec_agree h.countDraw hop he
  · rw [step_of_script (h.script ▸ hs) hd (h.admission_eq st c ▸ ha)]
    cases c with
    | run i =>
      have hblock : stimulusOfBlock st = true := by simpa [State.blockNext, hs] using hb
      exact exec_agree (h.consume rest) (admitted_of_block hblock hd ha) he
    | reset =>
      cases he
      have heq := (h.consume rest).powerUp_eq
      exact ⟨_, congrArg Host.Outcome.next heq.symm, .refl _, fun _ => rfl⟩

/-- A step presents nothing new: it leaves the script or drops its head. -/
theorem step_script_subset {s t : State} (h : step s = .next t) : t.script ⊆ s.script := by
  obtain ⟨s₁, henv, hdo⟩ := step_cases h
  have hs₁ : s₁.script ⊆ s.script := by
    rcases henv with ⟨-, rfl⟩ | ⟨st, rest, hs, rfl⟩
    · exact List.Subset.refl _
    · rw [hs]; exact List.subset_cons_self st rest
  rcases hdo with ⟨i, he, -⟩ | ⟨-, rfl⟩
  · rwa [exec_script he]
  · exact hs₁

/-- A script of the block's own stimuli makes the next step one of the block's own. -/
theorem blockNext_of_script {s : State} (h : ∀ st ∈ s.script, stimulusOfBlock st = true) : s.blockNext = true := by
  unfold State.blockNext
  split
  · rfl
  · rename_i st rest hs
    exact h st (hs ▸ List.mem_cons_self)

/-- A run of the block, step by step, does not tell apart two states that differ in registers not yet written. -/
theorem run_agree (n : Nat) {s s' t : State} (h : AgreeOnWritten s s')
    (hscript : ∀ st ∈ s.script, stimulusOfBlock st = true) (hrun : Sys2Proof.core.run n s = .next t) :
    ∃ t', Sys2Proof.core.run n s' = .next t' ∧ AgreeOnWritten t t' := by
  induction n generalizing s s' with
  | zero => cases hrun; exact ⟨s', rfl, h⟩
  | succ n ih =>
    obtain ⟨u, hstep, hrest⟩ := run_succ_next hrun
    obtain ⟨u', hstep', hagree, -⟩ := unwrittenRegistersAreNotRead s s' u h (blockNext_of_script hscript) hstep
    rw [run_succ hstep']
    exact ih hagree (fun st hst => hscript st (step_script_subset hstep hst)) hrest

/-- Settles O60: right after power-up, in phase 0, no register R39 calls "unwritten" need agree, so `run_agree`
applies. -/
theorem powerUpContentsNeverShow : Obligations.PowerUpContentsNeverShow := by
  intro p script tick n lo hi smp cv sl dl oc t hscript hrun
  obtain ⟨t', hrun', hagree⟩ := run_agree n
    (s' := { State.resetWith p with
      script := script, tick := tick, calLo := lo, calHi := hi, sample := smp, calv := cv, swL := sl, dirL := dl,
      ocr := oc })
    (by constructor <;> simp [State.resetWith]) hscript hrun
  exact ⟨t', hrun', hagree.switch.symm, hagree.dir.symm, hagree.hist.symm, hagree.dout.symm, hagree.ph.symm,
    hagree.ie.symm, hagree.stat.symm, hagree.req.symm⟩

end Sys2Proof.Machine
end

section
/-! SUPPORT. The order of steps (20_memory.md R74, R75): a decoded operation that the schedule may place here is admitted,
and what an event writes to a flag stays until the phase that reads it. -/

namespace Sys2Proof.Machine

/-! ## The next scripted stimulus -/

/-- A scheduled phase that `PH` names is admitted when its draw is of the instance's width (R105). -/
theorem admission_phase {i : Instr} {s : State} (w : SchedWord) (hph : phaseCode i = some s.ph)
    (hfit : operandsFit s.par i = true) : admission (.sched w) (.run i) s = .ok () := by
  cases i with
  | edge cur => cases hph
  | _ => exact (if_pos hph).trans (operandCheck_ok.mpr hfit)

/-- A scheduled event is admitted while `IE = 1` (R105, R120). -/
theorem admission_event {s : State} (w : SchedWord) (cur : Byte) (hie : s.ie = true) :
    admission (.sched w) (.run (.edge cur)) s = .ok () := if_pos hie

/-- What a schedule word stands for is admitted where the schedule may place it (R105). -/
theorem admission_sched {w : SchedWord} {i : Instr} {s : State} (hd : decode (.sched w) = .ok (.run i))
    (hfit : operandsFit s.par i = true) (hph : ∀ p, phaseCode i = some p → s.ph = p)
    (hie : phaseCode i = none → s.ie = true) : admission (.sched w) (.run i) s = .ok () := by
  rcases decodeSched_ok hd with ⟨j, hj, -, hphase⟩ | ⟨cur, hcur, -⟩ | ⟨hreset, -⟩
  · cases hj
    have hcode := phaseCode_of_decodePhaseStep hphase
    exact admission_phase w (hph _ hcode ▸ hcode) hfit
  · cases hcur
    exact admission_event w cur (hie rfl)
  · cases hreset

/-- Settles O22: what a schedule word stands for is admitted by `admission_sched`, an event that is presented and the
multiplexer's wires always are, and the mapper's wires are for operands of their widths. -/
theorem stepRunsTheDecodedOperation : Obligations.StepRunsTheDecodedOperation := by
  intro s st rest i hs hd hfit hph hie
  have hadmitted : admission st (.run i) s = .ok () := by
    cases st with
    | sched w => exact admission_sched hd hfit hph fun hnone => hie hnone rfl
    | evt pin => rfl
    | mux sel => rfl
    | func value srcLow srcHigh dstLow dstHigh =>
      cases hd
      exact operandCheck_ok.mpr hfit
  exact step_of_script hs hd hadmitted

/-! ## Runs of operations -/

/-- Every operation answers a next state (R222). -/
theorem exec_completes (i : Instr) (s : State) : ∃ t, exec i s = .next t := by
  cases i with
  | calsmp draw => cases draw <;> exact ⟨_, rfl⟩
  | drive =>
    simp only [exec, execDrive]
    split
    · exact ⟨_, rfl⟩
    · split <;> exact ⟨_, rfl⟩
  | _ => exact ⟨_, rfl⟩

/-- A run goes through the next state its first operation answers. -/
theorem runAll_cons {i : Instr} {s t : State} (he : exec i s = .next t) (is : List Instr) :
    runAll (i :: is) s = runAll is t := by
  rw [runAll, he, andThen]

/-- A run goes through the state in which its first part ends. -/
theorem runAll_append {is : List Instr} {s t : State} (h : runAll is s = .next t) (js : List Instr) :
    runAll (is ++ js) s = runAll js t := by
  induction is generalizing s with
  | nil => cases h; rfl
  | cons i is ih =>
    obtain ⟨u, hu⟩ := exec_completes i s
    rw [runAll_cons hu] at h
    rw [List.cons_append, runAll_cons hu, ih h]

/-- A run of one operation is that operation. -/
theorem runAll_singleton {i : Instr} {s t : State} (he : exec i s = .next t) : runAll [i] s = .next t :=
  runAll_cons he []

/-! ## The two flags -/

/-- Only `EDGE` writes a flag (R30, R77). -/
theorem exec_flags {i : Instr} {s t : State} (he : exec i s = .next t) (hi : ∀ c, i ≠ .edge c) :
    t.switch = s.switch ∧ t.dir = s.dir := by
  obtain ⟨hdetector, -⟩ := eachRegisterHasItsWriters i s t he
  obtain ⟨hswitch, hdir, -⟩ := hdetector hi
  exact ⟨hswitch, hdir⟩

/-- A run without an `EDGE` completes and leaves both flags as they were. -/
theorem runAll_flags {is : List Instr} (his : ∀ i ∈ is, ∀ c, i ≠ .edge c) (s : State) :
    ∃ t, runAll is s = .next t ∧ t.switch = s.switch ∧ t.dir = s.dir := by
  induction is generalizing s with
  | nil => exact ⟨s, rfl, rfl, rfl⟩
  | cons i is ih =>
    obtain ⟨hi, his⟩ := List.forall_mem_cons.mp his
    obtain ⟨u, hu⟩ := exec_completes i s
    obtain ⟨hswitch, hdir⟩ := exec_flags hu hi
    obtain ⟨t, hrun, hswitch', hdir'⟩ := ih his u
    exact ⟨t, (runAll_cons hu is).trans hrun, hswitch'.trans hswitch, hdir'.trans hdir⟩

/-- An event inverts the low bit of `SWITCH` when the switch input changed (R122). -/
theorem edgeBody_switch {cur : Byte} {s : State} (h : cur.getLsbD s.par.swBit ≠ s.hist.getLsbD s.par.swBit) :
    (edgeBody cur s).switch = s.switch ^^^ 0x01 := by
  have htoggle : tglSw s.par cur s.hist = true := (changed_getLsbD _ _ _).mpr h.symm
  simp [edgeBody_eq, htoggle]

/-- An event inverts the low bit of `DIR` when the direction input changed (R122). -/
theorem edgeBody_dir {cur : Byte} {s : State} (h : cur.getLsbD s.par.dirBit ≠ s.hist.getLsbD s.par.dirBit) :
    (edgeBody cur s).dir = s.dir ^^^ 0x01 := by
  have htoggle : tglDir s.par cur s.hist = true := (changed_getLsbD _ _ _).mpr h.symm
  simp [edgeBody_eq, htoggle]

/-- Settles O41: the operations in between leave both flags as the event left them (`runAll_flags`), and the read
latches what it finds. -/
theorem toggleIsSeenAtTheNextRead : Obligations.ToggleIsSeenAtTheNextRead := by
  intro s cur between hie hbetween
  have hevent : exec (.edge cur) s = .next (edgeBody cur s) :=
    congrArg Host.Outcome.next (State.takeEvent_enabled hie (edgeBody cur))
  obtain ⟨m, hrun, hswitch, hdir⟩ := runAll_flags hbetween (edgeBody cur s)
  have hreach {read : Instr} {t : State} (hread : exec read m = .next t) :
      runAll (.edge cur :: between ++ [read]) s = .next t :=
    (runAll_append ((runAll_cons hevent between).trans hrun) [read]).trans (runAll_singleton hread)
  exact ⟨_, _, _, hevent, hreach rfl, hswitch, hreach rfl, hdir, fun h => hswitch.trans (edgeBody_switch h),
    fun h => hdir.trans (edgeBody_dir h)⟩

end Sys2Proof.Machine
end

section
/-! SUPPORT. Encoding and decoding are inverse to each other (30_encoding.md R93, R95, R99, R105): each encoded operation
decodes to itself, and each word that decodes to an operation is its encoding. -/

namespace Sys2Proof.Machine

/-! ## The decoder on encoded words -/

/-- A foreground word is decoded from its phase and its argument (R105). -/
theorem decode_foreground (p : PhaseCode) (a : BitVec 16) :
    decode (.sched (schedWord 0 p a)) = (decodePhaseStep p a).map .run := by
  simp [decode, decodeSched]

/-- A foreground word runs what its phase and its argument stand for (R105). -/
theorem decode_foreground_ok {p : PhaseCode} {a : BitVec 16} {i : Instr} (h : decodePhaseStep p a = .ok i) :
    decode (.sched (schedWord 0 p a)) = .ok (.run i) := by
  rw [decode_foreground, h, Except.map]

/-- An event word holds its snapshot whole (R105). -/
theorem decode_event (cur : Byte) : decode (.sched (schedWord 1 0 (cur.setWidth 16))) = .ok (.run (.edge cur)) := by
  have hfit : cur.toNat % 65536 < 2 ^ Config.wIn := (Nat.mod_le _ _).trans_lt cur.isLt
  have hback : (cur.setWidth 16).setWidth Config.wIn = cur := BitVec.setWidth_setWidth_of_le cur (by decide)
  simp [decode, decodeSched, hfit, hback]

/-- A selector runs its row of the multiplexer (R93). -/
theorem decode_selector {sel : Selector} {i : Instr} (h : decodeSelector sel = i) :
    decode (.mux sel) = .ok (.run i) := congrArg (fun j => Except.ok (Command.run j)) h

/-- The error row's `DIR_L` is neither of the two directions (R93). -/
theorem wellFormed_drvErr {d : Byte} : wellFormed (.drvErr d) = true ↔ d ≠ 0x00 ∧ d ≠ 0x01 := by
  simp only [wellFormed, decide_eq_true_eq, ne_eq, ← BitVec.toNat_inj]
  show 2 ≤ d.toNat ↔ ¬d.toNat = 0 ∧ ¬d.toNat = 1
  omega

/-- Settles O30: the fields of a word give back what it was built from; a draw is read back whole because the operation
is well formed, and the error row is told from the two directions because its `DIR_L` is neither. -/
theorem decodeOfEncodeIsTheOperation : Obligations.DecodeOfEncodeIsTheOperation := by
  intro i hwf
  cases i with
  | calsmp draw =>
    cases draw with
    | none => exact decode_foreground_ok rfl
    | some v => exact decode_foreground_ok (decodePhaseStep_calsmp (of_decide_eq_true hwf))
  | sample adc => exact decode_foreground_ok (decodePhaseStep_sample (of_decide_eq_true hwf))
  | edge cur => exact decode_event cur
  | mapFn => rfl
  | drvOff d => exact decode_selector (decodeSelector_disabled d)
  | drvFwd | drvRev => exact decode_selector (decodeSelector_enabled _)
  | drvErr d =>
    obtain ⟨hfwd, hrev⟩ := wellFormed_drvErr.mp hwf
    refine decode_selector ((decodeSelector_enabled d).trans ?_)
    rw [if_neg hfwd, if_neg hrev]
  | _ => exact decode_foreground_ok rfl

/-! ## The encoder on decoded words -/

/-- The argument of `CALSMP` is "expired" or a draw of 15 bits (R105). -/
theorem decodePhaseStep_window (a : BitVec 16) :
    decodePhaseStep 2 a =
      if a = expiredArg then .ok (.calsmp none)
      else if a.toNat < 2 ^ 15 then .ok (.calsmp (some a.toNat)) else .error .expiredWithDraw := rfl

/-- A phase without a draw takes the argument 0 and no other (R105). -/
theorem decodePhaseStep_noDraw {p : PhaseCode} (hcal : p ≠ 2) (hsample : p ≠ 4) (a : BitVec 16) :
    decodePhaseStep p a =
      (phaseInstr p none 0).bind fun i => if a = 0 then .ok i else .error .argumentNotZero := by
  unfold decodePhaseStep
  split
  · exact absurd (BitVec.eq_of_toNat_eq ‹_›) hcal
  · exact absurd (BitVec.eq_of_toNat_eq ‹_›) hsample
  · rfl

/-- A phase other than `CALSMP`, with no draw or the draw 0, is encoded as its code with the argument 0. -/
theorem encode_of_phaseInstr {p : PhaseCode} {i : Instr} (hcal : p ≠ 2) (h : phaseInstr p none 0 = .ok i) :
    encode i = encodePhase p ∧ wellFormed i = true := by
  have hcode := phaseCode_of_phaseInstr h
  cases i with
  | calsmp draw => cases hcode; exact absurd rfl hcal
  | sample adc => cases hcode; cases h; exact ⟨rfl, rfl⟩
  | edge | mapFn | drvOff | drvFwd | drvRev | drvErr => cases hcode
  | _ => cases hcode; exact ⟨rfl, rfl⟩

/-- What a phase and an argument stand for is encoded as a foreground word of the two (R105). -/
theorem encode_of_decodePhaseStep {p : PhaseCode} {a : BitVec 16} {i : Instr} (h : decodePhaseStep p a = .ok i) :
    encode i = .sched (schedWord 0 p a) ∧ wellFormed i = true := by
  have hdraw : BitVec.ofNat 16 a.toNat = a := by simp
  by_cases hcal : p = 2
  · subst hcal
    rw [decodePhaseStep_window] at h
    split_ifs at h with hexpired hlt <;> cases h
    · exact ⟨by rw [hexpired, encode], rfl⟩
    · exact ⟨by rw [encode, hdraw], decide_eq_true hlt⟩
  by_cases hsample : p = 4
  · subst hsample
    cases h
    exact ⟨by rw [encode, hdraw], decide_eq_true a.isLt⟩
  rw [decodePhaseStep_noDraw hcal hsample] at h
  cases hi : phaseInstr p none 0 with
  | error e => rw [hi] at h; cases h
  | ok j =>
    rw [hi, Except.bind] at h
    split at h <;> cases h
    subst a
    exact encode_of_phaseInstr hcal hi

/-- The row a selector picks is encoded as that selector (R93). -/
theorem encode_decodeSelector (sel : Selector) :
    encode (decodeSelector sel) = .mux sel ∧ wellFormed (decodeSelector sel) = true := by
  rw [← selectorWord_fields sel]
  generalize selDir sel = d
  cases selEnable sel
  · rw [decodeSelector_disabled]
    exact ⟨rfl, rfl⟩
  · rw [decodeSelector_enabled]
    split_ifs with hfwd hrev
    · exact ⟨by rw [hfwd, encode], rfl⟩
    · exact ⟨by rw [hrev, encode], rfl⟩
    · exact ⟨rfl, wellFormed_drvErr.mpr ⟨hfwd, hrev⟩⟩

/-- Settles O31: a schedule word that decodes to an operation is a foreground word, rebuilt from its fields, or the word
of an event, and a selector is rebuilt from its two fields. -/
theorem encodeOfDecodeIsTheWord : Obligations.EncodeOfDecodeIsTheWord := by
  intro st i hevt hd
  cases st with
  | sched w =>
    rcases decodeSched_ok hd with ⟨j, hj, hkind, hphase⟩ | ⟨cur, hcur, hw⟩ | ⟨hreset, -⟩
    · cases hj
      have hfields := schedWord_fields w
      rw [hkind] at hfields
      exact hfields ▸ encode_of_decodePhaseStep hphase
    · cases hcur
      rw [hw]
      exact ⟨rfl, rfl⟩
    · cases hreset
  | evt pin => exact absurd rfl (hevt pin)
  | mux sel => cases hd; exact encode_decodeSelector sel
  | func => cases hd; exact ⟨rfl, rfl⟩

/-! ## Single words -/

/-- Settles O32: `en` is 0 exactly for the switch word 0, and the enabled rows ask for `DIR_L` what the motor state
asks. -/
theorem selectorPicksTheMotorState : Obligations.SelectorPicksTheMotorState := by
  intro sw d
  apply decode_selector
  by_cases hsw : sw = 0x00
  · have hoff : enabled sw = false := by simp [enabled, hsw]
    rw [hoff, decodeSelector_disabled, motorState, if_pos hsw]
  · rw [(enabled_iff sw).mpr hsw, decodeSelector_enabled, motorState, if_neg hsw]
    split_ifs <;> rfl

/-- Settles O29: the words are closed, and the decoder is run on each. -/
theorem specWordsDecodeAsWritten : Obligations.SpecWordsDecodeAsWritten :=
  ⟨rfl, rfl, rfl, rfl, rfl, rfl, rfl, rfl, rfl⟩

end Sys2Proof.Machine
end

section
/-! SUPPORT. Steps on encoded words: a presented table word runs its row, and a word not admitted in the state is refused
(30_encoding.md R102, R105). The rows of the multiplexer as operations (R93). -/

namespace Sys2Proof.Machine

/-! ## Presented stimuli -/

/-- A presented stimulus heads the script. -/
theorem present_script (s : State) (st : Stimulus) : (s.present st).script = st :: s.script := by
  unfold State.present
  split <;> rfl

/-- Presenting a stimulus leaves the parameters as they are. -/
theorem present_par (s : State) (st : Stimulus) : (s.present st).par = s.par := by
  unfold State.present
  split <;> rfl

/-- A presented phase finds its code in `PH`. -/
theorem present_ph {s : State} {st : Stimulus} {i : Instr} {p : PhaseCode} (hd : decode st = .ok (.run i))
    (hp : phaseCode i = some p) : (s.present st).ph = p := by
  rw [State.present, hd]
  cases i with
  | edge cur => cases hp
  | _ => exact congrArg (·.getD s.ph) hp

/-- A presented event finds `IE = 1`. -/
theorem present_ie {s : State} {st : Stimulus} {cur : Byte} (hd : decode st = .ok (.run (.edge cur))) :
    (s.present st).ie = true := by
  rw [State.present, hd]

/-- An operation of the block's own stimuli that is no phase is an event. -/
theorem event_of_block {st : Stimulus} {i : Instr} (hb : stimulusOfBlock st = true) (hd : decode st = .ok (.run i))
    (hp : phaseCode i = none) : ∃ cur, i = .edge cur := by
  cases st with
  | sched w =>
    rcases decodeSched_ok hd with ⟨j, hj, -, hphase⟩ | ⟨cur, hcur, -⟩ | ⟨hreset, -⟩
    · cases hj
      rw [phaseCode_of_decodePhaseStep hphase] at hp
      cases hp
    · cases hcur; exact ⟨cur, rfl⟩
    · cases hreset
  | evt pin => cases hd; exact ⟨pin, rfl⟩
  | mux sel => cases hb
  | func => cases hb

/-- A table word that reads as an operation is a stimulus that decodes to it. -/
theorem decode_tableStimulus {nbits w : Nat} {i : Instr} (h : decodeTableWord nbits w = some i) :
    decode (tableStimulus nbits w) = .ok (.run i) := by
  unfold decodeTableWord at h
  split at h <;> cases h
  assumption

/-- Settles O28: presenting the stimulus of a table word makes it the next one and sets `PH` and `IE` as
`stepRunsTheDecodedOperation` asks. -/
theorem fetchWordRunsTheTableRow : Obligations.FetchWordRunsTheTableRow := by
  intro s nbits w i hi hfit
  have hd := decode_tableStimulus hi
  refine stepRunsTheDecodedOperation _ _ s.script i (present_script s _) hd ?_ (fun p => present_ph hd) ?_
  · rwa [State.withFetchWord, present_par]
  · intro hnone hb
    obtain ⟨cur, rfl⟩ := event_of_block hb hd hnone
    exact present_ie hd

/-! ## Reserved phases -/

/-- A code from 14 on names no phase (R102). -/
theorem phaseInstr_reserved {p : PhaseCode} (hp : 14 ≤ p.toNat) (draw : Option Nat) (adc : Nat) :
    phaseInstr p draw adc = .error .reservedPhase :=
  (phaseInstr_ok_or_reserved p draw adc).elim (fun h => absurd h.1 (by omega)) And.right

/-- A foreground word with a reserved phase stands for nothing, whatever its argument (R102). -/
theorem decode_reserved {p : PhaseCode} (hp : 14 ≤ p.toNat) (a : BitVec 16) :
    decode (.sched (schedWord 0 p a)) = .error .reservedPhase := by
  have hne (q : PhaseCode) (hq : q.toNat < 14) : p ≠ q := by rintro rfl; omega
  rw [decode_foreground, decodePhaseStep_noDraw (hne 2 (by decide)) (hne 4 (by decide)), phaseInstr_reserved hp]
  rfl

/-- With no event presented, a reserved phase leaves no free choice (R102, R224). -/
theorem freeInstr_reserved {s : State} (hp : 14 ≤ s.ph.toNat)
    (hevent : s.ie = true → Config.freeEvent s.par.period s.tick = none) : freeInstr s = .error .reservedPhase := by
  have hnone : (if s.ie then Config.freeEvent s.par.period s.tick else none) = none := ite_eq_right_iff.mpr hevent
  rw [freeInstr, hnone]
  exact phaseInstr_reserved hp _ _

/-- With nothing scripted and no free choice the step is refused. -/
theorem step_free_undecodable {s : State} {e : DecodeError} (hs : s.script = []) (he : freeInstr s = .error e) :
    step s = .refused (.undecodable e) := by
  simp [step, fetch, hs, he]

/-- Settles O24: neither the free choice nor a foreground word names a phase. -/
theorem reservedPhaseIsRefused : Obligations.ReservedPhaseIsRefused := fun _ hp =>
  ⟨fun hs hevent => step_free_undecodable hs (freeInstr_reserved hp hevent),
    fun a _ hs => step_undecodable hs (decode_reserved hp a)⟩

/-! ## Schedules that are not admitted -/

/-- A phase is encoded as a foreground word with its code (R95, R105). -/
theorem encode_phase {i : Instr} {p : PhaseCode} (hp : phaseCode i = some p) :
    ∃ a, encode i = .sched (schedWord 0 p a) := by
  cases i with
  | calsmp draw => cases hp; exact Laws.PhaseField.calsmp draw
  | sample adc => cases hp; exact Laws.PhaseField.sample adc
  | edge | mapFn | drvOff | drvFwd | drvRev | drvErr => cases hp
  | _ => cases hp; exact ⟨0, rfl⟩

/-- A scheduled phase is admitted where `PH` names it, with operands of the parameters' widths (R105). -/
theorem admission_scheduled {i : Instr} {p : PhaseCode} (hp : phaseCode i = some p) (w : SchedWord) (s : State) :
    admission (.sched w) (.run i) s = if p = s.ph then operandCheck s.par i else .error .phaseMismatch := by
  cases i with
  | edge cur => cases hp
  | _ => simp only [admission, hp, Option.some.injEq]

/-- Settles O25: the words decode (O30), and the state admits neither the phase, nor the draw, nor the event. -/
theorem illFormedScheduleIsRefused : Obligations.IllFormedScheduleIsRefused := by
  intro s rest
  refine ⟨fun i p hwf hp hs => ?_, fun cur hie hs => ?_⟩
  · have hd := decodeOfEncodeIsTheOperation i hwf
    obtain ⟨a, ha⟩ := encode_phase hp
    rw [ha] at hs hd
    have hadm := admission_scheduled hp (schedWord 0 p a) s
    refine ⟨fun hne => step_not_admitted hs hd ?_, fun heq hwide => step_not_admitted hs hd ?_⟩
    · rw [hadm, if_neg hne.symm]
    · rw [hadm, if_pos heq.symm, operandCheck, hwide]
      rfl
  · exact step_not_admitted hs (decode_event cur) (if_neg (by simp [hie]))

/-! ## The rows of the multiplexer -/

/-- Settles O20: each row is its writes of `DOUT`, `OCR` and `STAT`. -/
theorem multiplexerRowsDriveTheMotor : Obligations.MultiplexerRowsDriveTheMotor := fun _ =>
  ⟨fun _ => rfl, rfl, rfl⟩

/-- Settles O21: the error row is its writes of `STAT` and `OCR`. -/
theorem multiplexerErrorRowReports : Obligations.MultiplexerErrorRowReports := fun _ _ => rfl

end Sys2Proof.Machine
end

section
/-! SUPPORT. The edge detector (40_edge_detector.md R121 to R127, 60_exceptions.md R230): what one event writes, what it
leaves when no named bit changed, and how a press and its release fold. -/

namespace Sys2Proof.Machine

/-! ## The change mask -/

/-- Settles O33: each bit is an exclusive or, and the toggle signals are bits of the mask as they are defined. -/
theorem changeMaskMarksTheDifferingBits : Obligations.ChangeMaskMarksTheDifferingBits := fun cur hist =>
  ⟨fun k _ => (changed_getLsbD cur hist k).trans ne_comm, fun _ => ⟨rfl, rfl⟩⟩

/-- The change mask does not tell the snapshot from the history (R121). -/
theorem changed_comm (cur hist : Byte) : changed cur hist = changed hist cur := BitVec.xor_comm cur hist

theorem tglSw_comm (p : Params) (cur hist : Byte) : tglSw p cur hist = tglSw p hist cur :=
  congrArg (BitVec.getLsbD · p.swBit.val) (changed_comm cur hist)

theorem tglDir_comm (p : Params) (cur hist : Byte) : tglDir p cur hist = tglDir p hist cur :=
  congrArg (BitVec.getLsbD · p.dirBit.val) (changed_comm cur hist)

/-- The switch signal is 0 exactly when the switch bit did not change (R121). -/
theorem tglSw_eq_false {p : Params} {cur hist : Byte} :
    tglSw p cur hist = false ↔ cur.getLsbD p.swBit = hist.getLsbD p.swBit := by
  rw [tglSw_eq, bne_eq_false_iff_eq]

/-- The direction signal is 0 exactly when the direction bit did not change (R121). -/
theorem tglDir_eq_false {p : Params} {cur hist : Byte} :
    tglDir p cur hist = false ↔ cur.getLsbD p.dirBit = hist.getLsbD p.dirBit := by
  rw [tglDir_eq, bne_eq_false_iff_eq]

/-- Inverting the low bit twice gives the flag back (R127). -/
theorem toggleIf_toggleIf (t : Bool) (f : Byte) : toggleIf t (toggleIf t f) = f := by
  rw [toggleIf_eq_xor, toggleIf_eq_xor, BitVec.xor_assoc, BitVec.xor_self, BitVec.xor_zero]

/-! ## One event -/

/-- An event runs the detector while `IE = 1` (R120). -/
theorem exec_edge_enabled {s : State} (hie : s.ie = true) (cur : Byte) :
    exec (.edge cur) s = .next (edgeBody cur s) :=
  congrArg Host.Outcome.next (State.takeEvent_enabled hie (edgeBody cur))

/-- An event is without effect while `IE = 0` (R230). -/
theorem exec_edge_masked {s : State} (hie : s.ie = false) (cur : Byte) : exec (.edge cur) s = .next s :=
  congrArg Host.Outcome.next (State.takeEvent_masked hie (edgeBody cur))

/-- Settles O18: the handler does not run, and the step that consumes a presented event runs just that operation. -/
theorem maskedEventHasNoEffect : Obligations.MaskedEventHasNoEffect := fun s cur hie =>
  ⟨exec_edge_masked hie cur, fun rest hs =>
    (step_of_script hs rfl rfl).trans (exec_edge_masked (s := { s with script := rest }) hie cur)⟩

/-- Settles O17: the detector's one update (`edgeBody_eq`), with each toggle as an exclusive or. -/
theorem edgeTogglesChangedFlags : Obligations.EdgeTogglesChangedFlags := fun s cur hie =>
  ⟨edgeBody cur s, tglSw s.par cur s.hist, tglDir s.par cur s.hist, exec_edge_enabled hie cur,
    changed_getLsbD cur s.hist s.par.swBit, changed_getLsbD cur s.hist s.par.dirBit,
    by simp only [edgeBody_eq, toggleIf_eq_xor, uval]⟩

/-- Settles O34: each flag is toggled by its own signal, which reads its own bits only (`tglSw_eq`, `tglDir_eq`). -/
theorem flagsToggleIndependently : Obligations.FlagsToggleIndependently := by
  intro s s' t t' cur cur' hie hie' hpar he he'
  rw [exec_edge_enabled hie] at he
  rw [exec_edge_enabled hie'] at he'
  cases he
  cases he'
  simp only [edgeBody_eq, tglSw_eq, tglDir_eq, ← hpar]
  exact ⟨fun hflag hhist hcur => by rw [hflag, hhist, hcur], fun hflag hhist hcur => by rw [hflag, hhist, hcur]⟩

/-- With both toggle signals 0 the detector replaces the history and does nothing else (R125). -/
theorem edgeBody_unchanged {s : State} {cur : Byte} (hsw : tglSw s.par cur s.hist = false)
    (hdir : tglDir s.par cur s.hist = false) : edgeBody cur s = { s with hist := cur } := by
  simp [edgeBody_eq, hsw, hdir]

/-- Settles O35: both signals are 0; a snapshot that is the history is a case of it. -/
theorem eventWithoutChangeIsANoop : Obligations.EventWithoutChangeIsANoop := by
  intro s cur hie
  have hnoop (hsw : cur.getLsbD s.par.swBit = s.hist.getLsbD s.par.swBit)
      (hdir : cur.getLsbD s.par.dirBit = s.hist.getLsbD s.par.dirBit) :
      exec (.edge cur) s = .next { s with hist := cur } := by
    rw [exec_edge_enabled hie, edgeBody_unchanged (tglSw_eq_false.mpr hsw) (tglDir_eq_false.mpr hdir)]
  refine ⟨?_, hnoop⟩
  rintro rfl
  exact hnoop rfl rfl

/-! ## A press and its release -/

/-- An event and the event back: the history and the flags are as before, since both events have the same toggle
signals, and each signal that is 1 has left a record of each event (R127). -/
theorem edgeBody_edgeBody_hist (press : Byte) (s : State) :
    edgeBody s.hist (edgeBody press s) =
      { s with
        stat := s.stat ++
            (if tglSw s.par press s.hist then
              [⟨.stSwitch, uval (toggleIf (tglSw s.par press s.hist) s.switch), 0⟩] else []) ++
            (if tglDir s.par press s.hist then
              [⟨.stDir, uval (toggleIf (tglDir s.par press s.hist) s.dir), 0⟩] else []) ++
            (if tglSw s.par press s.hist then [⟨.stSwitch, uval s.switch, 0⟩] else []) ++
          (if tglDir s.par press s.hist then [⟨.stDir, uval s.dir, 0⟩] else []) } := by
  rw [edgeBody_eq s.hist, edgeBody_eq press]
  simp only [tglSw_comm s.par s.hist press, tglDir_comm s.par s.hist press, toggleIf_toggleIf]

/-- What stands where the switch signal is 1 stands where the switch bit differs (R121). -/
theorem ite_tglSw {α : Type} (p : Params) (cur hist : Byte) (a b : α) :
    (if tglSw p cur hist then a else b) = if cur.getLsbD p.swBit = hist.getLsbD p.swBit then b else a := by
  rw [tglSw_eq]
  simp only [bne_iff_ne, ite_not]

/-- What stands where the direction signal is 1 stands where the direction bit differs (R121). -/
theorem ite_tglDir {α : Type} (p : Params) (cur hist : Byte) (a b : α) :
    (if tglDir p cur hist then a else b) = if cur.getLsbD p.dirBit = hist.getLsbD p.dirBit then b else a := by
  rw [tglDir_eq]
  simp only [bne_iff_ne, ite_not]

/-- Settles O36: both events are taken, and the two handlers fold to the records alone. -/
theorem pressAndReleaseFold : Obligations.PressAndReleaseFold := by
  intro s press hie
  have hie' : (edgeBody press s).ie = true := by rw [edgeBody_eq]; exact hie
  refine ⟨⟨.stSwitch, uval (toggleIf (tglSw s.par press s.hist) s.switch), 0⟩,
    ⟨.stDir, uval (toggleIf (tglDir s.par press s.hist) s.dir), 0⟩, ⟨.stSwitch, uval s.switch, 0⟩,
    ⟨.stDir, uval s.dir, 0⟩, rfl, rfl, rfl, rfl, ?_⟩
  rw [runAll_cons (exec_edge_enabled hie press), runAll_singleton (exec_edge_enabled hie' s.hist),
    edgeBody_edgeBody_hist]
  simp only [ite_tglSw, ite_tglDir]

end Sys2Proof.Machine
end

section
/-! SUPPORT. The range mapper (41_range_mapper.md R140 to R150): the two cases of its formula, its order and its ends
over the integers, and the same formula in wrapping words of `W_INT` bits. -/

namespace Sys2Proof.Machine

/-! ## The formula over the integers -/

/-- The degenerate case, before anything else (R142). -/
@[simp] theorem mapInt_degenerate (value k dstLow dstHigh : Int) : mapInt value k k dstLow dstHigh = dstLow :=
  if_pos rfl

/-- The case that divides (R140). -/
theorem mapInt_of_ne {srcLow srcHigh : Int} (h : srcHigh ≠ srcLow) (value dstLow dstHigh : Int) :
    mapInt value srcLow srcHigh dstLow dstHigh =
      dstLow + ((value - srcLow) * (dstHigh - dstLow)).tdiv (srcHigh - srcLow) := if_neg h

/-- The lower end maps to the lower end: the product is 0 (R148). -/
theorem mapInt_srcLow (srcLow srcHigh dstLow dstHigh : Int) :
    mapInt srcLow srcLow srcHigh dstLow dstHigh = dstLow := by
  simp [mapInt]

section ordered

variable {lo hi : Int} (h : lo < hi)
include h

/-- The upper end maps to the upper end: the product is an exact multiple of the divisor (R143, R148). -/
theorem mapInt_srcHigh (dstLow dstHigh : Int) : mapInt hi lo hi dstLow dstHigh = dstHigh := by
  rw [mapInt_of_ne h.ne', Int.mul_tdiv_cancel_left _ (by omega), add_sub_cancel]

/-- Division by the length of the source range keeps the order of the products (R148). -/
theorem mapInt_le_mapInt {v w c d : Int} (hvw : (v - lo) * (d - c) ≤ (w - lo) * (d - c)) :
    mapInt v lo hi c d ≤ mapInt w lo hi c d := by
  rw [mapInt_of_ne h.ne', mapInt_of_ne h.ne']
  exact Int.add_le_add_left (Int.tdiv_le_tdiv (by omega) hvw) c

/-- A rising destination range gives a rising map (R148). -/
theorem mapInt_mono {v w c d : Int} (hvw : v ≤ w) (hcd : c ≤ d) : mapInt v lo hi c d ≤ mapInt w lo hi c d :=
  mapInt_le_mapInt h (mul_le_mul_of_nonneg_right (by omega) (by omega))

/-- A falling destination range gives a falling map (R148, R149). -/
theorem mapInt_anti {v w c d : Int} (hvw : v ≤ w) (hdc : d ≤ c) : mapInt w lo hi c d ≤ mapInt v lo hi c d :=
  mapInt_le_mapInt h (mul_le_mul_of_nonpos_right (by omega) (by omega))

/-- Below the source range by a whole step of the slope, the result is below `dstLow` (R145). -/
theorem mapInt_lt_dstLow {v c d : Int} (hstep : hi - lo ≤ (lo - v) * (d - c)) : mapInt v lo hi c d < c := by
  have hquot := Int.tdiv_le_tdiv (sub_pos.mpr h) (show (v - lo) * (d - c) ≤ (hi - lo) * (-1) by linarith)
  rw [Int.mul_tdiv_cancel_left _ (sub_pos.mpr h).ne'] at hquot
  rw [mapInt_of_ne h.ne']
  omega

/-- Above the source range by a whole step of the slope, the result is above `dstHigh` (R145). -/
theorem dstHigh_lt_mapInt {v c d : Int} (hstep : hi - lo ≤ (v - hi) * (d - c)) : d < mapInt v lo hi c d := by
  have hquot := Int.tdiv_le_tdiv (sub_pos.mpr h) (show (hi - lo) * (d - c + 1) ≤ (v - lo) * (d - c) by linarith)
  rw [Int.mul_tdiv_cancel_left _ (sub_pos.mpr h).ne'] at hquot
  rw [mapInt_of_ne h.ne']
  omega

end ordered

/-! ## The unit on its wires -/

/-- The result wires hold every integer of the magnitude R146 gives. -/
theorem signedOf_wInt_of_natAbs_lt {p : Params} (hp : p.wf = true) {v : Int}
    (hv : v.natAbs < 2 ^ (p.wAdc + p.wOcr + 1)) : signedOf p.wInt v = v := by
  obtain ⟨-, hw, -, -⟩ := wf_parts hp
  have hpow : 2 ^ (p.wAdc + p.wOcr + 1) ≤ 2 ^ (p.wInt - 1) := Nat.pow_le_pow_right (by decide) (by omega)
  apply signedOf_of_inSigned (by omega)
  zify at hv hpow
  rw [abs_lt] at hv
  constructor <;> omega

/-- A degenerate range gives `dstLow` on the wires, whatever `value` and `dstHigh` are (R142). -/
theorem mapUnit_degenerate {p : Params} (hp : p.wf = true) (value k dstHigh : Nat) {dstLow : Nat}
    (hc : dstLow < 2 ^ p.wOcr) : mapUnit p value k k dstLow dstHigh = dstLow := by
  have hpow : 2 ^ p.wOcr ≤ 2 ^ (p.wAdc + p.wOcr + 1) := Nat.pow_le_pow_right (by decide) (by omega)
  rw [mapUnit, mapInt_degenerate]
  exact signedOf_wInt_of_natAbs_lt hp (by omega)

/-- The operands of `map` are values of the widths of R99, one by one. -/
theorem operandsFit_mapFn {p : Params} {value srcLow srcHigh dstLow dstHigh : Nat}
    (h : operandsFit p (.mapFn value srcLow srcHigh dstLow dstHigh) = true) :
    value < 2 ^ p.wAdc ∧ srcLow < 2 ^ p.wAdc ∧ srcHigh < 2 ^ p.wAdc ∧ dstLow < 2 ^ p.wOcr ∧ dstHigh < 2 ^ p.wOcr :=
  of_decide_eq_true h

/-- `map` alone: a write of its result wires, from the bits its operand wires carry (R99, R150). -/
theorem exec_mapFn (value srcLow srcHigh dstLow dstHigh : Nat) (s : State) :
    exec (.mapFn value srcLow srcHigh dstLow dstHigh) s = .next (s.setMapOut (mapUnit s.par (truncTo s.par.wAdc value)
      (truncTo s.par.wAdc srcLow) (truncTo s.par.wAdc srcHigh) (truncTo s.par.wOcr dstLow)
      (truncTo s.par.wOcr dstHigh))) := rfl

/-- Phase `MAP`: the mapper's result for the latched sample, the calibrated range and the duty domain (R183). -/
theorem exec_mapPhase (s : State) :
    exec .mapPhase s =
      .next ((s.setCalv (mapUnit s.par s.sample s.calLo s.calHi s.par.outLo s.par.outHi)).goTo 6) := rfl

/-- Settles O19: one write of the result wires, which carry the integer of the formula exactly (`mapUnit_eq_mapInt`). -/
theorem mapAloneChangesNoState : Obligations.MapAloneChangesNoState := by
  intro s value srcLow srcHigh dstLow dstHigh
  refine ⟨_, exec_mapFn value srcLow srcHigh dstLow dstHigh s, rfl, fun hp hfit => ?_⟩
  obtain ⟨hv, hl, hh, hc, hd⟩ := operandsFit_mapFn hfit
  rw [State.setMapOut_mapOut, truncTo_of_lt hv, truncTo_of_lt hl, truncTo_of_lt hh, truncTo_of_lt hc, truncTo_of_lt hd]
  constructor
  · rintro rfl
    exact mapUnit_degenerate hp _ _ _ hc
  · intro hne
    rw [mapUnit_eq_mapInt hp srcHigh hv hl hc hd, mapInt_of_ne (Int.ofNat_inj.not.mpr hne)]

/-- Settles O42: the degenerate test comes first, on the wires and in phase `MAP`, which appends nothing. -/
theorem degenerateRangeMapsToLow : Obligations.DegenerateRangeMapsToLow := by
  refine ⟨fun p value k dstLow dstHigh hp hc => mapUnit_degenerate hp value k dstHigh hc, fun s hp hcal => ?_⟩
  obtain ⟨-, -, hlo, -⟩ := wf_parts hp
  refine ⟨_, exec_mapPhase s, ?_, rfl⟩
  rw [hcal]
  exact mapUnit_degenerate hp _ _ _ hlo

/-- Settles O43: the ends and the order of the integer formula, which the wires carry exactly. -/
theorem mapIsMonotonicWithExactEnds : Obligations.MapIsMonotonicWithExactEnds := by
  intro p lo hi c d hp hlt hhi hc hd
  have hlt' : (lo : Int) < hi := Int.ofNat_lt.mpr hlt
  have hmap (v : Nat) (hv : v < 2 ^ p.wAdc) : mapUnit p v lo hi c d = mapInt v lo hi c d :=
    mapUnit_eq_mapInt hp hi hv (hlt.trans hhi) hc hd
  refine ⟨?_, ?_, fun v w hvw hw => ?_⟩
  · rw [hmap lo (hlt.trans hhi), mapInt_srcLow]
  · rw [hmap hi hhi, mapInt_srcHigh hlt']
  · rw [hmap v (hvw.trans_lt hw), hmap w hw]
    exact ⟨fun hcd => mapInt_mono hlt' (Int.ofNat_le.mpr hvw) (Int.ofNat_le.mpr hcd),
      fun hdc => mapInt_anti hlt' (Int.ofNat_le.mpr hvw) (Int.ofNat_le.mpr hdc)⟩

/-- Settles O44: by monotonicity a value is on the side of each end on which its image is, and a whole step of the slope
carries the image beyond. -/
theorem mapDoesNotClamp : Obligations.MapDoesNotClamp := by
  intro p v lo hi c d hp hlt hhi hv hcd hd
  have hlt' : (lo : Int) < hi := Int.ofNat_lt.mpr hlt
  have hlow := mapInt_srcLow lo hi c d
  have hhigh := mapInt_srcHigh hlt' c d
  have hmono {v w : Nat} (hvw : v ≤ w) : mapInt v lo hi c d ≤ mapInt w lo hi c d :=
    mapInt_mono hlt' (Int.ofNat_le.mpr hvw) (Int.ofNat_le.mpr hcd)
  rw [mapUnit_eq_mapInt hp hi hv (hlt.trans hhi) (hcd.trans_lt hd) hd]
  refine ⟨fun hlov hvhi => ⟨hlow.ge.trans (hmono hlov), (hmono hvhi).trans_eq hhigh⟩,
    fun hvlo => ⟨(hmono hvlo.le).trans_eq hlow, fun hstep => ?_⟩,
    fun hhiv => ⟨hhigh.ge.trans (hmono hhiv.le), fun hstep => ?_⟩⟩
  · zify [hlt.le, hvlo.le, hcd] at hstep
    exact mapInt_lt_dstLow hlt' hstep
  · zify [hlt.le, hhiv.le, hcd] at hstep
    exact dstHigh_lt_mapInt hlt' hstep

/-! ## The formula in wrapping words -/

/-- A difference of two widened operands is exact (R100, R146). -/
theorem toInt_ofNat_sub_ofNat {p : Params} (hp : p.wf = true) {a b : Nat} (ha : a < 2 ^ (p.wAdc + p.wOcr))
    (hb : b < 2 ^ (p.wAdc + p.wOcr)) : (BitVec.ofNat p.wInt a - BitVec.ofNat p.wInt b).toInt = (a : Int) - b := by
  rw [BitVec.toInt_sub, BitVec.toInt_ofNat', BitVec.toInt_ofNat', Int.bmod_sub_bmod, Int.sub_bmod_bmod]
  exact signedOf_wInt_of_natAbs_lt hp (by rw [pow_succ]; omega)

/-- The product of the two differences is exact in words of `W_INT` bits (R146). -/
theorem toInt_mapProduct {p : Params} (hp : p.wf = true) {value srcLow dstLow dstHigh : Nat} (hv : value < 2 ^ p.wAdc)
    (hl : srcLow < 2 ^ p.wAdc) (hc : dstLow < 2 ^ p.wOcr) (hd : dstHigh < 2 ^ p.wOcr) :
    ((BitVec.ofNat p.wInt value - BitVec.ofNat p.wInt srcLow) *
      (BitVec.ofNat p.wInt dstHigh - BitVec.ofNat p.wInt dstLow)).toInt =
      ((value : Int) - srcLow) * ((dstHigh : Int) - dstLow) := by
  have hadc : 2 ^ p.wAdc ≤ 2 ^ (p.wAdc + p.wOcr) := Nat.pow_le_pow_right (by decide) (by omega)
  have hocr : 2 ^ p.wOcr ≤ 2 ^ (p.wAdc + p.wOcr) := Nat.pow_le_pow_right (by decide) (by omega)
  have hprod := mapProduct_bound hv hl hc hd
  rw [BitVec.toInt_mul, toInt_ofNat_sub_ofNat hp (by omega) (by omega), toInt_ofNat_sub_ofNat hp (by omega) (by omega)]
  exact signedOf_wInt_of_natAbs_lt hp (by rw [pow_succ]; omega)

/-- Settles O45: the differences and the product are exact in words of `W_INT` bits, and the quotient and the sum wrap
just as the result wires do. -/
theorem mapperNeverOverflows : Obligations.MapperNeverOverflows := by
  intro p value srcLow srcHigh dstLow dstHigh hp hfit
  obtain ⟨hv, hl, hh, hc, hd⟩ := operandsFit_mapFn hfit
  have hexact := mapUnit_eq_mapInt hp srcHigh hv hl hc hd
  have hadc : 2 ^ p.wAdc ≤ 2 ^ (p.wAdc + p.wOcr) := Nat.pow_le_pow_right (by decide) (by omega)
  refine ⟨?_, hexact, hexact ▸ mapInt_bound srcHigh hv hl hc hd⟩
  by_cases hdeg : srcHigh = srcLow
  · rw [if_pos hdeg, BitVec.toInt_ofNat', mapUnit, hdeg, mapInt_degenerate, signedOf]
  · rw [if_neg hdeg, BitVec.toInt_add, BitVec.toInt_sdiv, toInt_mapProduct hp hv hl hc hd,
      toInt_ofNat_sub_ofNat hp (by omega) (by omega), BitVec.toInt_ofNat', Int.bmod_add_bmod, Int.add_bmod_bmod,
      mapUnit, mapInt_of_ne (Int.ofNat_inj.not.mpr hdeg), signedOf]

end Sys2Proof.Machine
end

section
/-! SUPPORT. The calibration (42_calibrator.md R161 to R166): what each phase does, the window as a fold over its
samples, and what a step between `SETUP` and `CALEND`, or in the loop after them, leaves as it was. -/

namespace Sys2Proof.Machine

/-! ## The phases -/

/-- `CALINIT`: events masked, the initial inverted bounds, `CALSMP` next (R161). -/
theorem exec_calinit (s : State) :
    exec .calinit s = .next { s with ie := false, calLo := 2 ^ s.par.wAdc - 1, calHi := 0, ph := 2 } := rfl

/-- `CALSMP` with a sample: the bounds take it in, and `CALSMP` comes again (R162). -/
theorem exec_calsmp_sample (v : Nat) (s : State) :
    exec (.calsmp (some v)) s = .next { s with
      calLo := min s.calLo (v % 2 ^ s.par.wAdc), calHi := max s.calHi (v % 2 ^ s.par.wAdc), ph := 2 } := rfl

/-- `CALSMP` after the window has run out: `CALEND` is next, and no sample is drawn (R162, D13). -/
theorem exec_calsmp_expired (s : State) : exec (.calsmp none) s = .next { s with ph := 3 } := rfl

/-- `CALEND`: events unmasked, the loop begun (R163). -/
theorem exec_calend (s : State) : exec .calend s = .next { s with ie := true, ph := 4 } := rfl

/-- Settles O4: the code of R95 and the effect of `CALINIT`. -/
theorem calinitOpensTheWindow : Obligations.CalinitOpensTheWindow := ⟨rfl, exec_calinit⟩

/-- Settles O5: the code of R95 and the two branches of `CALSMP`. -/
theorem calsmpTracksMinimumAndMaximum : Obligations.CalsmpTracksMinimumAndMaximum := fun s =>
  ⟨fun v => ⟨rfl, exec_calsmp_sample v s⟩, rfl, exec_calsmp_expired s⟩

/-- Settles O6: the code of R95 and the effect of `CALEND`. -/
theorem calendUnmasksEvents : Obligations.CalendUnmasksEvents := ⟨rfl, exec_calend⟩

/-! ## The window -/

/-- The encoding of the phase `PH` names, at the head of the script, is that phase's step (R105). -/
theorem step_encoded_phase {s : State} {i : Instr} {rest : List Stimulus} (hs : s.script = encode i :: rest)
    (hwf : wellFormed i = true) (hph : phaseCode i = some s.ph) (hfit : operandsFit s.par i = true) :
    step s = exec i { s with script := rest } := by
  refine stepRunsTheDecodedOperation s (encode i) rest i hs (decodeOfEncodeIsTheOperation i hwf) hfit
    (fun p hp => ?_) (fun hnone => ?_)
  · exact Option.some.inj (hph.symm.trans hp)
  · rw [hph] at hnone; cases hnone

/-- From `CALSMP`, a window folds minimum and maximum over its samples and goes on to `CALEND` (R162). -/
theorem run_calibrationScript (samples : List Nat) {s : State} {rest : List Stimulus} (hph : s.ph = 2)
    (hsamples : ∀ v ∈ samples, v < 2 ^ s.par.wAdc ∧ v < 2 ^ 15)
    (hs : s.script = calibrationScript samples ++ rest) :
    Sys2Proof.core.run (samples.length + 1) s = .next { s with
      calLo := samples.foldl min s.calLo, calHi := samples.foldl max s.calHi, ph := 3, script := rest } := by
  induction samples generalizing s with
  | nil =>
    have hstep := step_encoded_phase (i := .calsmp none) hs rfl (congrArg some hph.symm) rfl
    exact run_succ (hstep.trans (exec_calsmp_expired _)) 0
  | cons v samples ih =>
    obtain ⟨⟨hwidth, hword⟩, hsamples⟩ := List.forall_mem_cons.mp hsamples
    have hstep := step_encoded_phase (i := .calsmp (some v)) hs (decide_eq_true hword) (congrArg some hph.symm)
      (decide_eq_true hwidth)
    rw [exec_calsmp_sample, Nat.mod_eq_of_lt hwidth] at hstep
    exact (run_succ hstep _).trans (ih rfl hsamples rfl)

/-- A running minimum that starts at or above every sample ends at the least of them (R164). -/
theorem foldl_min_eq_least {samples : List Nat} (hne : samples ≠ []) {top : Nat} (htop : ∀ v ∈ samples, v ≤ top) :
    samples.foldl min top = samples.min hne := by
  rw [List.foldl_min_eq_min hne, min_eq_right (htop _ (List.min_mem hne))]

/-- A running maximum that starts at 0 ends at the greatest of the samples (R164). -/
theorem foldl_max_eq_greatest {samples : List Nat} (hne : samples ≠ []) :
    samples.foldl max 0 = samples.max hne := by
  rw [List.foldl_max_eq_max hne, max_eq_right (Nat.zero_le _)]

/-- Settles O47: the window folds minimum and maximum over its samples from the bounds `CALINIT` sets, which no sample
lies beyond. -/
theorem calibrationFindsTheExtremes : Obligations.CalibrationFindsTheExtremes := by
  intro samples s rest hph hsamples hs
  have hinit := step_encoded_phase (i := .calinit) hs rfl (congrArg some hph.symm) rfl
  refine ⟨_, (run_succ (hinit.trans (exec_calinit _)) _).trans (run_calibrationScript samples rfl hsamples rfl),
    fun hne => ?_, ?_, rfl⟩
  · have htop : ∀ v ∈ samples, v ≤ 2 ^ s.par.wAdc - 1 := fun v hv => Nat.le_sub_one_of_lt (hsamples v hv).1
    simp only [foldl_min_eq_least hne htop, foldl_max_eq_greatest hne]
    exact ⟨List.min_mem hne, List.max_mem hne, fun v hv => ⟨List.min_le_of_mem hv, List.le_max_of_mem hv⟩⟩
  · rintro rfl
    exact ⟨rfl, rfl⟩

/-! ## Steps before and after `CALEND` -/

/-- A step that is no reset is one operation, after a move of the environment alone: the phase `PH` names, an event, or
wires driven alone (R74; log entry 10). -/
theorem step_operation {s t : State} (hstep : step s = .next t) (hreset : s.resetNext = false) :
    ∃ i script tick, exec i { s with script := script, tick := tick } = .next t ∧
      (phaseCode i = some s.ph ∨ (∃ cur, i = .edge cur) ∨ (s.blockNext = false ∧ unitOperation i)) := by
  obtain ⟨s₁, henv, ⟨i, he, hi⟩ | ⟨hnext, -⟩⟩ := step_cases hstep
  · rcases henv with ⟨-, rfl⟩ | ⟨st, rest, -, rfl⟩
    · exact ⟨i, s.script, s.tick + 1, he, hi⟩
    · exact ⟨i, rest, s.tick, he, hi⟩
  · rw [hreset] at hnext; cases hnext

/-- The operations on wires driven alone are no phases (R94). -/
theorem phaseCode_unitOperation {i : Instr} (hi : unitOperation i) : phaseCode i = none := by
  rcases hi with ⟨_, _, _, _, _, rfl⟩ | ⟨_, rfl⟩ | rfl | rfl | ⟨_, rfl⟩ <;> rfl

/-- The phases up to `CALEND` write neither the flags nor `HIST`, and emit nothing (R165). -/
theorem exec_calibration_frame {i : Instr} {s t : State} {p : PhaseCode} (hi : phaseCode i = some p)
    (hp : p.toNat ≤ 3) (he : exec i s = .next t) :
    t.switch = s.switch ∧ t.dir = s.dir ∧ t.hist = s.hist ∧ t.stat = s.stat := by
  obtain ⟨hdetector, -, -, -, -, -, -, -, -, -, hstat, -⟩ := eachRegisterHasItsWriters i s t he
  have hne {j : Instr} (hj : ∀ q, phaseCode j = some q → 4 ≤ q.toNat) : i ≠ j := by
    rintro rfl
    exact absurd (hj p hi) (by omega)
  have hedge : ∀ c, i ≠ .edge c := fun c => hne (by simp [phaseCode])
  obtain ⟨hswitch, hdir, hhist⟩ := hdetector hedge
  exact ⟨hswitch, hdir, hhist, hstat hedge (hne (by simp [phaseCode])) (hne (by simp [phaseCode]))
    (hne (by simp [phaseCode])) (fun d => hne (by simp [phaseCode])) (fun d => hne (by simp [phaseCode]))⟩

/-- Settles O48: events are masked up to `CALEND`, so an event does nothing, and a phase writes none of the four. -/
theorem calibrationIsUninterruptible : Obligations.CalibrationIsUninterruptible := by
  intro s t h hph hblock hreset hstep
  obtain ⟨i, script, tick, he, hi | ⟨cur, rfl⟩ | ⟨hwires, -⟩⟩ := step_operation hstep hreset
  · have hframe := exec_calibration_frame hi hph he
    exact hframe
  · have hmasked : s.ie = false := h.maskedUntilLoop.trans (decide_eq_false (by omega))
    rcases exec_edge_cases he with ⟨-, rfl⟩ | ⟨hie, -⟩
    · exact ⟨rfl, rfl, rfl, rfl⟩
    · rw [hmasked] at hie; cases hie
  · rw [hblock] at hwires; cases hwires

/-- An operation that is no phase up to `CALEND` writes neither the range nor `IE` (R163, R166). -/
theorem exec_loop_frame {i : Instr} {s t : State} (hi : ∀ p, phaseCode i = some p → 4 ≤ p.toNat)
    (he : exec i s = .next t) : t.ie = s.ie ∧ t.calLo = s.calLo ∧ t.calHi = s.calHi := by
  obtain ⟨-, hrange, -, -, -, -, -, -, hie, -⟩ := eachRegisterHasItsWriters i s t he
  have hne {j : Instr} {q : PhaseCode} (hj : phaseCode j = some q) (hq : ¬ 4 ≤ q.toNat) : i ≠ j := by
    rintro rfl
    exact hq (hi q hj)
  have hinit : i ≠ .calinit := hne rfl (by decide)
  exact ⟨hie hinit (hne rfl (by decide)), hrange hinit fun d => hne rfl (by decide)⟩

/-- Settles O49: no operation of the loop writes `IE` or the range, and the invariant, which the step keeps, says that
events are enabled in the loop only. -/
theorem rangeIsImmutableInTheLoop : Obligations.RangeIsImmutableInTheLoop := by
  intro s t h hph hreset hstep
  obtain ⟨i, script, tick, he, hi⟩ := step_operation hstep hreset
  have hloop (p : PhaseCode) (hp : phaseCode i = some p) : 4 ≤ p.toNat := by
    rcases hi with hi | ⟨cur, rfl⟩ | ⟨-, hunit⟩
    · exact Option.some.inj (hi.symm.trans hp) ▸ hph
    · cases hp
    · rw [phaseCode_unitOperation hunit] at hp; cases hp
  obtain ⟨hie, hrange⟩ := exec_loop_frame hloop he
  have henabled : t.ie = true := hie.trans (h.maskedUntilLoop.trans (decide_eq_true hph))
  have hkept := everyStepKeepsTheInvariant s t h hstep
  exact ⟨of_decide_eq_true (hkept.maskedUntilLoop.symm.trans henabled), henabled, hrange⟩

end Sys2Proof.Machine
end

section
/-! SUPPORT. The control loop (43_control_loop.md R180 to R195): what each phase does, the actuator stage, the drive
decision as one update, and the loop with nothing scripted. -/

namespace Sys2Proof.Machine

/-! ## Nothing scripted -/

/-- Where `PH` names a phase, the environment's free choice is an operation (R102, R224). -/
theorem freeInstr_total {s : State} (hph : s.ph.toNat < 14) : ∃ i, freeInstr s = .ok i := by
  unfold freeInstr
  split
  · exact ⟨_, rfl⟩
  · rcases phaseInstr_ok_or_reserved s.ph
        (if Config.freeExpired s.par.calDuration s.tick then none else some (freeSample s)) (freeSample s)
      with ⟨-, hok⟩ | ⟨hreserved, -⟩
    · exact hok
    · omega

/-- A free step completes, presents nothing, keeps the parameters and counts its draw (R34, R222). -/
theorem step_free_completes {s : State} (hph : s.ph.toNat < 14) (hs : s.script = []) :
    ∃ t, step s = .next t ∧ t.script = [] ∧ t.par = s.par ∧ t.tick = s.tick + 1 := by
  obtain ⟨i, hi⟩ := freeInstr_total hph
  obtain ⟨t, he⟩ := exec_completes i { s with tick := s.tick + 1 }
  obtain ⟨-, -, -, -, -, -, -, -, -, -, -, -, hpar, hscript, htick⟩ := eachRegisterHasItsWriters i _ t he
  exact ⟨t, (step_free hs hi).trans he, hscript.trans hs, hpar, htick⟩

/-- Settles O58, by induction on the number of steps: in a good state the free step completes, and every step keeps the
invariant. -/
theorem theLoopNeverHalts : Obligations.TheLoopNeverHalts := by
  intro n
  induction n with
  | zero => exact fun s h hs => ⟨s, rfl, h, hs, rfl, rfl⟩
  | succ n ih =>
    intro s h hs
    obtain ⟨u, hstep, hscript, hpar, htick⟩ := step_free_completes h.phaseLegal hs
    obtain ⟨t, hrun, hinv, hempty, hpar', htick'⟩ := ih u (everyStepKeepsTheInvariant s u h hstep) hscript
    exact ⟨t, (run_succ hstep n).trans hrun, hinv, hempty, hpar'.trans hpar, by omega⟩

/-! ## The phases -/

/-- `SETUP`: the two requests, `CALINIT` next (R181, D27). -/
theorem exec_setup (s : State) :
    exec .setup s = .next { s with req := s.req ++ [.initAdc, .initPwm], ph := 1 } := by
  simp [exec, execSetup, State.issue, State.goTo]

/-- `SAMPLE`: the bits of the draw that the converter's wires carry are latched, `MAP` is next (R182). -/
theorem exec_sample (v : Nat) (s : State) :
    exec (.sample v) s = .next { s with sample := v % 2 ^ s.par.wAdc, ph := 5 } := rfl

/-- `REPORT`: one record, `RDSW` next (R184). -/
theorem exec_report (s : State) :
    exec .report s = .next { s with stat := s.stat ++ [⟨.stSample, s.sample, s.calv⟩], ph := 7 } := rfl

/-- `RDSW` on the disabled path (R185). -/
theorem exec_rdsw_disabled {s : State} (h : s.switch = 0x00) :
    exec .rdsw s = .next { s with swL := s.switch, ph := 11 } := by
  simp [exec, execRdsw, enabled, h, State.setSwL, State.goTo]

/-- `RDSW` on the enabled path (R185, D8). -/
theorem exec_rdsw_enabled {s : State} (h : s.switch ≠ 0x00) :
    exec .rdsw s = .next { s with swL := s.switch, ph := 8 } := by
  simp [exec, execRdsw, (enabled_iff _).mpr h, State.setSwL, State.goTo]

/-- `RDDIR`: the direction is latched, `DRIVE` is next (R186). -/
theorem exec_rddir (s : State) : exec .rddir s = .next { s with dirL := s.dir, ph := 9 } := rfl

/-- `DRIVE` forward (R187). -/
theorem exec_drive_forward {s : State} (h : s.dirL = 0x00) :
    exec .drive s = .next { s with dout := 0b10, ph := 10 } := if_pos h

/-- `DRIVE` in reverse (R187). -/
theorem exec_drive_reverse {s : State} (h : s.dirL = 0x01) :
    exec .drive s = .next { s with dout := 0b01, ph := 10 } :=
  (if_neg (by simp [h])).trans (if_pos h)

/-- `DRIVE` in the invalid configuration: a record, and `DOUT` stays (R191, D22). -/
theorem exec_drive_invalid {s : State} (h : ¬ flagLegal s.dirL) :
    exec .drive s = .next { s with stat := s.stat ++ [⟨.stDirerr, uval s.dirL, 0⟩], ph := 10 } :=
  (if_neg fun h0 => h (.inl h0)).trans (if_neg fun h1 => h (.inr h1))

/-- `PWMWR`: the actuator's value for `CALV`, `SLEEP` next (R188, R195). -/
theorem exec_pwmwr (s : State) : exec .pwmwr s = .next { s with ocr := act s.par s.calv, ph := 13 } := rfl

/-- `OFFOUT`: both outputs low, `OFFRPT` next (R189). -/
theorem exec_offout (s : State) : exec .offout s = .next { s with dout := 0b00, ph := 12 } := rfl

/-- `OFFRPT`: one record, `SLEEP` next (R190). -/
theorem exec_offrpt (s : State) :
    exec .offrpt s = .next { s with stat := s.stat ++ [⟨.stOff, 0, 0⟩], ph := 13 } := rfl

/-- `SLEEP`: `SAMPLE` is next (R192). -/
theorem exec_sleep (s : State) : exec .sleep s = .next { s with ph := 4 } := rfl

/-- A flag word of 2 or more is no legal flag (R31, R191). -/
theorem not_flagLegal_of_two_le {f : Byte} (h : 2 ≤ f.toNat) : ¬ flagLegal f := by
  rintro (rfl | rfl) <;> simp at h

/-- Settles O3: the code of R95 and the effect of `SETUP`. -/
theorem setupIssuesBothRequests : Obligations.SetupIssuesBothRequests := ⟨rfl, exec_setup⟩

/-- Settles O7: the code of R95 and the effect of `SAMPLE`, which takes a draw of the converter's width whole. -/
theorem sampleLatchesTheDraw : Obligations.SampleLatchesTheDraw := fun s v =>
  ⟨rfl, exec_sample v s, fun hv => by rw [exec_sample, Nat.mod_eq_of_lt hv]⟩

/-- Settles O8: the mapper unit carries the integer of the formula exactly, because `CAL_LO` and `SAMPLE` are of their
operands' widths. -/
theorem mapPhaseRescalesExactly : Obligations.MapPhaseRescalesExactly := by
  refine ⟨rfl, fun s => ⟨_, exec_mapPhase s, rfl, fun hp hfits => ?_⟩⟩
  obtain ⟨-, -, hlo, hhi⟩ := wf_parts hp
  rw [State.goTo_calv, State.setCalv_calv]
  constructor
  · intro hdeg
    rw [hdeg]
    exact mapUnit_degenerate hp _ _ _ hlo
  · intro hne
    rw [mapUnit_eq_mapInt hp s.calHi hfits.sample hfits.calLo hlo hhi, mapInt_of_ne (Int.ofNat_inj.not.mpr hne)]

/-- Settles O9: the code of R95 and the effect of `REPORT`. -/
theorem reportEmitsRawAndCalibrated : Obligations.ReportEmitsRawAndCalibrated := ⟨rfl, exec_report⟩

/-- Settles O10: the code of R95 and the two branches of `RDSW`. -/
theorem rdswLatchesAndBranches : Obligations.RdswLatchesAndBranches :=
  ⟨rfl, fun _ => ⟨exec_rdsw_disabled, exec_rdsw_enabled⟩⟩

/-- Settles O11: the code of R95 and the effect of `RDDIR`. -/
theorem rddirLatchesDirection : Obligations.RddirLatchesDirection := ⟨rfl, exec_rddir⟩

/-- Settles O12: the code of R95 and the three branches of `DRIVE`. -/
theorem driveSelectsOneOutput : Obligations.DriveSelectsOneOutput :=
  ⟨rfl, fun _ => ⟨exec_drive_forward, exec_drive_reverse, fun h => exec_drive_invalid (not_flagLegal_of_two_le h)⟩⟩

/-- Settles O13: `PWMWR` writes the actuator's value, by truncation or by saturation as `ACT_CLAMP` has it. -/
theorem pwmwrWritesTheActuatorValue : Obligations.PwmwrWritesTheActuatorValue :=
  ⟨rfl, fun s => ⟨_, exec_pwmwr s, rfl, fun h => act_truncates h s.calv, fun h => act_saturates h s.calv⟩⟩

/-- Settles O14: the code of R95 and the effect of `OFFOUT`. -/
theorem offoutSetsBothOutputsLow : Obligations.OffoutSetsBothOutputsLow := ⟨rfl, exec_offout⟩

/-- Settles O15: the code of R95 and the effect of `OFFRPT`. -/
theorem offrptReportsMotorOff : Obligations.OffrptReportsMotorOff := ⟨rfl, exec_offrpt⟩

/-- Settles O16: the code of R95 and the effect of `SLEEP`. -/
theorem sleepStartsTheNextIteration : Obligations.SleepStartsTheNextIteration := ⟨rfl, exec_sleep⟩

/-- Settles O46: a value of the domain is one of `W_OCR` bits, which truncation keeps, and saturation keeps what lies
between the ends of the domain and nothing else. -/
theorem actuatorKeepsTheDutyDomain : Obligations.ActuatorKeepsTheDutyDomain := by
  intro p v hp
  obtain ⟨-, -, hlo, hhi⟩ := wf_parts hp
  refine ⟨fun hmin hmax => ?_, fun hclamp => ?_⟩
  · cases hclamp : p.actClamp
    · have hwidth : (max p.outLo p.outHi : Nat) < (2 : Int) ^ p.wOcr := by exact_mod_cast max_lt hlo hhi
      rw [act_truncates hclamp, Int.emod_eq_of_lt (by omega) (by omega)]
    · rw [act_saturates hclamp]
      omega
  · have hsat := act_saturates hclamp v
    omega

/-- Settles O50: `PH` names one phase, whose effect has the successor; `CALSMP`, `RDSW` and `DRIVE` branch. -/
theorem successorTableHolds : Obligations.SuccessorTableHolds := by
  intro i s t hph he
  cases i
  case edge | mapFn | drvOff | drvFwd | drvRev | drvErr => cases hph
  all_goals replace hph := (Option.some.inj hph).symm
  case calsmp draw => cases draw <;> cases he <;> simp [hph]
  case drive => rcases exec_drive_cases he with ⟨-, rfl⟩ | ⟨-, rfl⟩ | ⟨-, rfl⟩ <;> simp [hph]
  case rdsw =>
    by_cases hsw : s.switch = 0x00
    · rw [exec_rdsw_disabled hsw] at he
      cases he
      simp [hph, hsw]
    · rw [exec_rdsw_enabled hsw] at he
      cases he
      simpa [hph] using hsw
  all_goals cases he; simp [hph]

/-! ## The drive decision -/

/-- The outputs a motor state selects (R93): the invalid configuration keeps them (R191). -/
def motorDout (m : MotorState) (kept : BitVec 2) : BitVec 2 :=
  match m with
  | .off => 0b00
  | .forward => 0b10
  | .reverse => 0b01
  | .invalid => kept

/-- The records a motor state reports (R93, R190, R191). -/
def motorRecords (m : MotorState) (dirL : Byte) : List StatusRecord :=
  match m with
  | .off => [⟨.stOff, 0, 0⟩]
  | .forward => []
  | .reverse => []
  | .invalid => [⟨.stDirerr, uval dirL, 0⟩]

/-- What the row of the multiplexer that (`SWITCH`, `DIR`) selects writes (R93). -/
def State.driven (s : State) : State :=
  { s with
    dout := motorDout (motorState s.switch s.dir) s.dout
    ocr := if s.switch = 0x00 then s.ocr else act s.par s.calv
    stat := s.stat ++ motorRecords (motorState s.switch s.dir) s.dir }

/-- The four motor states and the flags that select them (R93, R191). -/
theorem motorState_cases (sw dirL : Byte) :
    (sw = 0x00 ∧ motorState sw dirL = .off) ∨
    (sw ≠ 0x00 ∧ dirL = 0x00 ∧ motorState sw dirL = .forward) ∨
    (sw ≠ 0x00 ∧ dirL = 0x01 ∧ motorState sw dirL = .reverse) ∨
    (sw ≠ 0x00 ∧ ¬ flagLegal dirL ∧ motorState sw dirL = .invalid) := by
  unfold motorState flagLegal
  split
  · simp_all
  · split
    · simp_all
    · split <;> simp_all

/-- With the switch off the outputs go low, `OCR` stays and "motor switched off" is reported (R189, R190). -/
theorem driven_disabled {s : State} (hsw : s.switch = 0x00) :
    s.driven = { s with dout := 0b00, stat := s.stat ++ [⟨.stOff, 0, 0⟩] } := by
  have hm : motorState s.switch s.dir = .off := if_pos hsw
  rw [State.driven, hm, if_pos hsw]
  rfl

/-- With the switch on the compare register is written, and the direction selects the rest (R187, R188, R191). -/
theorem driven_enabled {s : State} (hsw : s.switch ≠ 0x00) :
    s.driven = { s with
      dout := motorDout (motorState s.switch s.dir) s.dout
      ocr := act s.par s.calv
      stat := s.stat ++ motorRecords (motorState s.switch s.dir) s.dir } := by
  rw [State.driven, if_neg hsw]

/-- The row a selector picks writes what `State.driven` says (R93; log entry 11). -/
theorem exec_selectedRow (s : State) :
    exec (decodeSelector (selectorWord (enabled s.switch) s.dir)) s = .next s.driven := by
  obtain ⟨hoff, hfwd, hrev⟩ := multiplexerRowsDriveTheMotor s
  rcases motorState_cases s.switch s.dir with ⟨hsw, -⟩ | ⟨hsw, hdir, hm⟩ | ⟨hsw, hdir, hm⟩ | ⟨hsw, hbad, hm⟩
  · have hdisabled : enabled s.switch = false := decide_eq_false (not_not.mpr hsw)
    rw [hdisabled, decodeSelector_disabled, hoff, driven_disabled hsw]
  · rw [(enabled_iff _).mpr hsw, decodeSelector_enabled, if_pos hdir, hfwd, driven_enabled hsw, hm]
    simp [motorDout, motorRecords]
  · rw [(enabled_iff _).mpr hsw, decodeSelector_enabled, if_neg (by simp [hdir]), if_pos hdir, hrev,
      driven_enabled hsw, hm]
    simp [motorDout, motorRecords]
  · obtain ⟨h0, h1⟩ := not_or.mp hbad
    rw [(enabled_iff _).mpr hsw, decodeSelector_enabled, if_neg h0, if_neg h1, multiplexerErrorRowReports,
      driven_enabled hsw, hm]
    rfl

/-- `DRIVE` after `RDDIR` writes the outputs and the record of the motor state that an enabled switch selects
(R187, R191). -/
theorem exec_drive_enabled {sw : Byte} (hsw : sw ≠ 0x00) (s : State) :
    exec .drive s = .next { s with
      dout := motorDout (motorState sw s.dirL) s.dout
      stat := s.stat ++ motorRecords (motorState sw s.dirL) s.dirL
      ph := 10 } := by
  rcases motorState_cases sw s.dirL with ⟨hoff, -⟩ | ⟨-, hdir, hm⟩ | ⟨-, hdir, hm⟩ | ⟨-, hdir, hm⟩
  · exact absurd hoff hsw
  · simp [exec_drive_forward hdir, hm, motorDout, motorRecords]
  · simp [exec_drive_reverse hdir, hm, motorDout, motorRecords]
  · simp [exec_drive_invalid hdir, hm, motorDout, motorRecords]

/-- One drive decision: what the selected row writes, the latches of the flags it read, and `SLEEP` next
(R185 to R190, R193). -/
theorem drivePass_eq (s : State) :
    drivePass s = .next { s.driven with
      swL := s.switch, dirL := if s.switch = 0x00 then s.dirL else s.dir, ph := 13 } := by
  by_cases hsw : s.switch = 0x00
  · rw [drivePass, exec_rdsw_disabled hsw, andThen, if_neg (by simp), runAll_cons (exec_offout _),
      runAll_singleton (exec_offrpt _), driven_disabled hsw, if_pos hsw]
  · rw [drivePass, exec_rdsw_enabled hsw, andThen, if_pos rfl, runAll_cons (exec_rddir _),
      runAll_cons (exec_drive_enabled hsw _), runAll_singleton (exec_pwmwr _), driven_enabled hsw, if_neg hsw]

/-- Settles O51: the pass ends in what the selected row writes (`drivePass_eq`, `exec_selectedRow`). -/
theorem phasesRealiseTheMultiplexer : Obligations.PhasesRealiseTheMultiplexer := fun s =>
  ⟨_, s.driven, _, drivePass_eq s, rfl, exec_selectedRow s, rfl, rfl, rfl, rfl⟩

/-- A motor state selects the same outputs again. -/
theorem motorDout_motorDout (m : MotorState) (kept : BitVec 2) :
    motorDout m (motorDout m kept) = motorDout m kept := by
  cases m <;> rfl

/-- Settles O52: a pass leaves the flags and `CALV`, so the second selects the same row, and that row's writes replace
the outputs and the compare register by what they are already. -/
theorem driveDecisionIsIdempotent : Obligations.DriveDecisionIsIdempotent := by
  intro s
  refine ⟨_, _, drivePass_eq s, drivePass_eq _, motorDout_motorDout _ _, ?_, rfl, ?_, _, rfl, rfl⟩
  all_goals simp only [State.driven]; split <;> rfl

/-- A legal direction selects outputs that do not depend on the ones before (R93, R191). -/
theorem motorDout_of_legal {dir : Byte} (hdir : flagLegal dir) (sw : Byte) (kept kept' : BitVec 2) :
    motorDout (motorState sw dir) kept = motorDout (motorState sw dir) kept' := by
  rcases motorState_cases sw dir with ⟨-, hm⟩ | ⟨-, -, hm⟩ | ⟨-, -, hm⟩ | ⟨-, hbad, -⟩
  · rw [hm]; rfl
  · rw [hm]; rfl
  · rw [hm]; rfl
  · exact absurd hdir hbad

/-- Settles O53: what a pass writes is a function of `SWITCH`, `DIR` and `CALV` (`drivePass_eq`), the outputs because
the direction is legal. -/
theorem driveDecisionHasNoMemory : Obligations.DriveDecisionHasNoMemory := by
  intro s s' hpar hswitch hdir hcalv hlegal
  refine ⟨_, _, drivePass_eq s, drivePass_eq s', ?_, ?_, motorRecords (motorState s.switch s.dir) s.dir, rfl, ?_⟩
  · simp only [State.driven, ← hswitch, ← hdir]
    exact motorDout_of_legal hlegal _ _ _
  · by_cases hsw : s.switch = 0x00
    · exact .inr ⟨hsw, if_pos hsw, if_pos (hswitch ▸ hsw)⟩
    · refine .inl ⟨hsw, if_neg hsw, ?_⟩
      rw [hpar, hcalv]
      exact if_neg (hswitch ▸ hsw)
  · simp only [State.driven, ← hswitch, ← hdir]

end Sys2Proof.Machine
end

section
/-! SUPPORT. Exceptions (60_exceptions.md R222 to R230): why a step is refused, what a free step is, and what an event
keeps and commutes with. -/

namespace Sys2Proof.Machine

/-! ## Refusals -/

/-- Settles O26: no operation answers a fault or a refusal, whichever branch it takes (`exec_completes`). -/
theorem everyOperationCompletes : Obligations.EveryOperationCompletes := exec_completes

/-- What a refused step met: no free choice, a stimulus that stands for nothing, or a command that is not admitted; once
a command is fetched, it completes (`exec_completes`). -/
theorem step_refused {s : State} {r : Refusal} (h : step s = .refused r) :
    (∃ e, s.script = [] ∧ freeInstr s = .error e ∧ r = .undecodable e) ∨
    (∃ st rest e, s.script = st :: rest ∧ decode st = .error e ∧ r = .undecodable e) ∨
    ∃ st rest c, s.script = st :: rest ∧ decode st = .ok c ∧ admission st c s = .error r := by
  cases hs : s.script with
  | nil =>
    cases hi : freeInstr s with
    | error e =>
      rw [step_free_undecodable hs hi] at h
      cases h
      exact .inl ⟨e, rfl, rfl, rfl⟩
    | ok i =>
      obtain ⟨t, he⟩ := exec_completes i { s with tick := s.tick + 1 }
      rw [step_free hs hi, he] at h
      cases h
  | cons st rest =>
    cases hd : decode st with
    | error e =>
      rw [step_undecodable hs hd] at h
      cases h
      exact .inr (.inl ⟨st, rest, e, rfl, hd, rfl⟩)
    | ok c =>
      cases ha : admission st c s with
      | error r' =>
        rw [step_not_admitted hs hd ha] at h
        cases h
        exact .inr (.inr ⟨st, rest, c, rfl, hd, ha⟩)
      | ok _ =>
        rw [step_of_script hs hd ha] at h
        cases c with
        | run i =>
          obtain ⟨t, he⟩ := exec_completes i { s with script := rest }
          rw [runCommand, he] at h
          cases h
        | reset => cases h

/-- A code that names no phase is reserved (R102). -/
theorem phaseInstr_error {p : PhaseCode} {draw : Option Nat} {adc : Nat} {e : DecodeError}
    (h : phaseInstr p draw adc = .error e) : 14 ≤ p.toNat ∧ e = .reservedPhase := by
  rcases phaseInstr_ok_or_reserved p draw adc with ⟨-, i, hok⟩ | ⟨hreserved, herror⟩
  · rw [hok] at h
    cases h
  · rw [herror] at h
    cases h
    exact ⟨hreserved, rfl⟩

/-- Only a reserved phase leaves no free choice (R102). -/
theorem freeInstr_error {s : State} {e : DecodeError} (h : freeInstr s = .error e) :
    14 ≤ s.ph.toNat ∧ e = .reservedPhase := by
  unfold freeInstr at h
  split at h
  · cases h
  · exact phaseInstr_error h

/-- Why what a schedule word stands for is not admitted: a masked event, a phase `PH` does not name, or a draw too wide
(R105; log entry 13). -/
theorem admission_sched_error {w : SchedWord} {i : Instr} {s : State} {r : Refusal}
    (hd : decode (.sched w) = .ok (.run i)) (h : admission (.sched w) (.run i) s = .error r) :
    ((∃ cur, i = .edge cur) ∧ s.ie = false ∧ r = .eventMasked) ∨
    ((∃ p, phaseCode i = some p ∧ p ≠ s.ph) ∧ r = .phaseMismatch) ∨
    (operandsFit s.par i = false ∧ r = .operandTooWide) := by
  cases hp : phaseCode i with
  | none =>
    obtain ⟨cur, rfl⟩ := event_of_block rfl hd hp
    cases hie : s.ie with
    | true => rw [admission_event w cur hie] at h; cases h
    | false =>
      simp only [admission, hie] at h
      cases h
      exact .inl ⟨⟨cur, rfl⟩, rfl, rfl⟩
  | some p =>
    rw [admission_scheduled hp] at h
    split at h
    · exact .inr (.inr (operandCheck_error h))
    · rename_i hne
      cases h
      exact .inr (.inl ⟨⟨p, rfl, hne⟩, rfl⟩)

/-- Settles O27: without a stimulus the phase is reserved (`freeInstr_error`); with one, it stands for nothing, or it is
not admitted, as a schedule word (`admission_sched_error`) or as operands of the mapper. -/
theorem stepIsRefusedOnlyForACause : Obligations.StepIsRefusedOnlyForACause := by
  intro s r h
  rcases step_refused h with ⟨e, hs, hi, rfl⟩ | hundecodable | ⟨st, rest, c, hs, hd, ha⟩
  · obtain ⟨hph, rfl⟩ := freeInstr_error hi
    exact .inl ⟨hs, hph, rfl⟩
  · exact .inr (.inl hundecodable)
  · refine .inr (.inr ⟨st, rest, ?_⟩)
    cases st with
    | sched w =>
      cases c with
      | reset => cases ha
      | run i =>
        refine ⟨i, hs, hd, ?_⟩
        rcases admission_sched_error hd ha with hmasked | hmismatch | hwide
        · exact .inl ⟨⟨w, rfl⟩, hmasked⟩
        · exact .inr (.inl ⟨⟨w, rfl⟩, hmismatch⟩)
        · exact .inr (.inr hwide)
    | evt pin => cases ha
    | mux sel => cases ha
    | func value srcLow srcHigh dstLow dstHigh =>
      cases hd
      exact ⟨_, hs, rfl, .inr (.inr (operandCheck_error ha))⟩

/-! ## Free steps -/

/-- The environment's free sample is a value of the converter's width (R9). -/
theorem freeSample_lt (s : State) : freeSample s < 2 ^ s.par.wAdc := BitVec.isLt _

/-- A phase with draws of the converter's width has operands of the instance's widths (R9). -/
theorem operandsFit_phaseInstr {p : Params} {code : PhaseCode} {draw : Option Nat} {adc : Nat} {i : Instr}
    (h : phaseInstr code draw adc = .ok i) (hdraw : ∀ v, draw = some v → v < 2 ^ p.wAdc) (hadc : adc < 2 ^ p.wAdc) :
    operandsFit p i = true := by
  unfold phaseInstr at h
  split at h <;> cases h
  any_goals rfl
  · cases draw with
    | none => rfl
    | some v => exact decide_eq_true (hdraw v rfl)
  · exact decide_eq_true hadc

/-- Settles O23: the free choice is the event that is presented, or the phase with the free draws, which are of the
converter's width (`freeSample_lt`). -/
theorem freeStepIsAnEventOrThePhase : Obligations.FreeStepIsAnEventOrThePhase := by
  intro s hs hph
  obtain ⟨i, hi⟩ := freeInstr_total hph
  have hstep := step_free hs hi
  split
  · rename_i cur hevent
    rw [freeInstr, hevent] at hi
    cases hi
    exact hstep
  · rename_i hnone
    rw [freeInstr, hnone] at hi
    refine ⟨i, phaseCode_of_phaseInstr hi, operandsFit_phaseInstr hi ?_ (freeSample_lt s), hstep⟩
    intro v hv
    split at hv <;> cases hv
    exact freeSample_lt s

/-! ## What an event keeps and commutes with -/

/-- Settles O37: the handler's one update (`edgeBody_eq`) writes none of these. -/
theorem eventSavesAndRestoresNothing : Obligations.EventSavesAndRestoresNothing := by
  intro s t cur hie he
  rw [exec_edge_enabled hie, edgeBody_eq] at he
  cases he
  exact ⟨rfl, hie, rfl, rfl, rfl, rfl⟩

/-- An event and an operation that keeps `IE` commute when the operation does after the handler what it does before it
(R225, D20). -/
theorem runAll_edge_comm {i : Instr} {s t : State} {cur : Byte} (hie : s.ie = true) (hbefore : exec i s = .next t)
    (hkept : t.ie = s.ie) (hafter : exec i (edgeBody cur s) = .next (edgeBody cur t)) :
    ∃ u, runAll [.edge cur, i] s = .next u ∧ runAll [i, .edge cur] s = .next u :=
  ⟨edgeBody cur t, (runAll_cons (exec_edge_enabled hie cur) [i]).trans (runAll_singleton hafter),
    (runAll_cons hbefore [.edge cur]).trans (runAll_singleton (exec_edge_enabled (hkept.trans hie) cur))⟩

/-- Settles O38: no register that one of these phases reads or writes is read or written by the handler
(`edgeBody_eq`). -/
theorem eventCommutesWithQuietPhases : Obligations.EventCommutesWithQuietPhases := by
  intro s cur v i hie hquiet
  rcases hquiet with rfl | rfl | ⟨rfl, hforward | hreverse⟩ | rfl | rfl | rfl
  · exact runAll_edge_comm hie (exec_sample v s) rfl (by simp only [exec_sample, edgeBody_eq])
  · exact runAll_edge_comm hie (exec_mapPhase s) rfl
      (by simp only [exec_mapPhase, edgeBody_eq, State.setCalv, State.goTo])
  · exact runAll_edge_comm hie (exec_drive_forward hforward) rfl
      (by simp only [exec_drive_forward, edgeBody_eq, hforward])
  · exact runAll_edge_comm hie (exec_drive_reverse hreverse) rfl
      (by simp only [exec_drive_reverse, edgeBody_eq, hreverse])
  · exact runAll_edge_comm hie (exec_pwmwr s) rfl (by simp only [exec_pwmwr, edgeBody_eq])
  · exact runAll_edge_comm hie (exec_offout s) rfl (by simp only [exec_offout, edgeBody_eq])
  · exact runAll_edge_comm hie (exec_sleep s) rfl (by simp only [exec_sleep, edgeBody_eq])

end Sys2Proof.Machine
end

section
/-! SUPPORT. Reset as a step, and an event between the two flag reads (70_reset_and_hazards.md R250, R258). -/

namespace Sys2Proof.Machine

/-! ## Reset -/

/-- The encoded reset stands for reset (R105). -/
theorem decode_encodeReset : decode encodeReset = .ok .reset := rfl

/-- A scripted reset ends in the reset state of the instance, the environment going on (R250). -/
theorem step_reset {s : State} {rest : List Stimulus} (hs : s.script = encodeReset :: rest) :
    step s = .next { State.resetWith s.par with script := rest, tick := s.tick } :=
  step_of_script hs decode_encodeReset rfl

/-- Settles O2: where a reset step ends (`step_reset`) depends on the parameters and the draw number only. -/
theorem powerUpForgetsEverything : Obligations.PowerUpForgetsEverything := by
  intro s s' rest hpar htick
  refine ⟨_, step_reset rfl, ?_, rfl⟩
  rw [hpar, htick]
  exact step_reset rfl

/-! ## The two flag reads -/

/-- `RDSW`: the switch flag is latched, and decides the path (R185, D8). -/
theorem exec_rdsw (s : State) :
    exec .rdsw s = .next { s with swL := s.switch, ph := if enabled s.switch then 8 else 11 } := rfl

/-- The handler of an event neither reads nor writes `SW_L` and `PH` (R122, R226). -/
theorem edgeBody_swL_ph (cur : Byte) (s : State) (v : Byte) (p : PhaseCode) :
    edgeBody cur { s with swL := v, ph := p } = { edgeBody cur s with swL := v, ph := p } := by
  simp only [edgeBody_eq]

/-- Settles O54: the event finds the flags as `RDSW` found them and leaves `SW_L` as it is (`edgeBody_swL_ph`), and
`RDDIR` reads what the event wrote. -/
theorem flagReadsAreNotOneSnapshot : Obligations.FlagReadsAreNotOneSnapshot := by
  intro s cur hie
  have hevent := exec_edge_enabled (s := { s with swL := s.switch, ph := if enabled s.switch then 8 else 11 }) hie cur
  rw [edgeBody_swL_ph] at hevent
  have hrun := (runAll_cons (exec_rdsw s) [.edge cur, .rddir]).trans
    ((runAll_cons hevent [.rddir]).trans (runAll_singleton (exec_rddir _)))
  exact ⟨edgeBody cur s, _, exec_edge_enabled hie cur, hrun, rfl, rfl, rfl⟩

end Sys2Proof.Machine
end
